-- ==== Sys2Proof/Word.lean ====
section
/-! DEFINITION. The word and byte of the register port (R15, R60, R65). -/

namespace Sys2Proof

/-- A 32-bit register or command word; bit 0 is the least significant (R15, R49). -/
abbrev Word := BitVec 32

/-- One byte lane of a word (R65). -/
abbrev Byte := BitVec 8

end Sys2Proof
end

