-- ==== Sys2Proof/Config.lean ====
section
/-! DEFINITION. What an instance fixes (R6 to R11, R64) and the free values that the spec leaves
open. The parameters are carried by `Machine.State.par`, so that every statement covers every
instance; a free value is an opaque constant, so that nothing can be proved of what it is. -/

namespace Sys2Proof

/-- The counting-mode family MODE (R9). -/
inductive Mode where
  /-- Compare-based, single-slope counting: event CompareMatch, no PWM, no guard, no probe. -/
  | ctc
  /-- Symmetric counting: event Overflow, PWM channels, start guard and direction probe. -/
  | sym
  deriving DecidableEq, Repr

/-- The parameters of an instance `TCB(R, F_HZ, TABLE, MODE, NCH)` (R2) and the base address of its
register window (R64). `Machine.paramsOk` is the check of R11. -/
structure Params where
  /-- R, the counter's bit width (R6). -/
  r : Nat
  /-- F_HZ, the prescaler's input clock in hertz (R7). -/
  fHz : Nat
  /-- TABLE, the prescaler ratios in ascending order (R8). -/
  table : List Nat
  /-- MODE, the counting-mode family (R9). -/
  mode : Mode
  /-- NCH, the number of PWM channels (R10). -/
  nch : Nat
  /-- BASE, the window's address in the host's address space (R64). -/
  base : Nat
  deriving DecidableEq, Repr

/-- `TABLE_5` of R8. -/
def table5 : List Nat := [1, 8, 64, 256, 1024]

/-- `TABLE_7` of R8. -/
def table7 : List Nat := [1, 8, 32, 64, 128, 256, 1024]

/-- The instance that `Machine.State.reset` starts: `TCB(16, 16_000_000, TABLE_5, SYM, 2)`, the one
of program P2 in 95_test_vectors.md, at base 0. DESIGN CHOICE, unsafe (log entry 2): the spec names
no one instance; SYM is the family in which every row of the opcode table exists. -/
def resetParams : Params :=
  { r := 16, fHz := 16000000, table := table5, mode := .sym, nch := 2, base := 0 }

/-- FREE VALUE: the answer of `draw_bool()` in R213, at the free-value index of the asking step.
"the model continues under both answers" (log entry 5, safe). -/
opaque Config.drawBool : Nat → Bool

/-- FREE VALUE: which enabled agent steps next where the schedule is empty, at the free-value index
of that step (R13: "any of which may be scheduled when its step is enabled"; log entry 4, safe). -/
opaque Config.freeTurn : Nat → Nat

end Sys2Proof
end

