-- ==== Sys2Proof/Syntax.lean ====
section
/-! DEFINITION. The commands: one constructor per row of the opcode map R85. The command word
carries a channel number and nothing else (R82): every other operand stands in ARG0 or ARG1. -/

namespace Sys2Proof

/-- The eleven commands of R85. `ch` is the channel number of the CH field (R80). -/
inductive Instr where
  /-- INIT, R125: configure the timer from a period and an optional callback. -/
  | init
  /-- SET_PERIOD, R127: change the period. -/
  | setPeriod
  /-- START, R130: reset the counter and begin counting. -/
  | start
  /-- STOP, R137: stop counting. -/
  | stop
  /-- RESUME, R139: continue counting without a reset. -/
  | resume
  /-- ATTACH, R141: attach the callback. -/
  | attach
  /-- DETACH, R143: detach the callback. -/
  | detach
  /-- READ, R160: the elapsed time of the current period. -/
  | read
  /-- PWM_ENABLE, R182: enable one channel, optionally changing the period first. -/
  | pwmEnable (ch : Nat)
  /-- PWM_DISABLE, R184: disable one channel. -/
  | pwmDisable (ch : Nat)
  /-- PWM_SET_DUTY, R181: set one channel's duty cycle. -/
  | pwmSetDuty (ch : Nat)
  deriving DecidableEq, Repr

end Sys2Proof
end

