-- ==== Sys2Proof/Machine/State.lean ====
section
/-! DEFINITION. The state of one instance (R30, R52), the reasons a step can stop, and reset (R51).
State is plain data: the block's registers, the instance's parameters, and the block's inputs and
outputs (the host's program, the schedule, the trace). R-bit registers are natural numbers whose
bound is part of `Safety.Inv` (log entry 9). -/

namespace Sys2Proof.Machine

/-- TimerState (R32). -/
inductive TimerState where
  | uninitialized
  | initializing
  | ready
  | running
  | stopped
  deriving DecidableEq, Repr

/-- The counting direction DIR (R37). -/
inductive Dir where
  | up
  | down
  deriving DecidableEq, Repr

/-- STATUS.CAUSE (R47, R200). -/
inductive Cause where
  | none
  | stateViolation
  | rangeViolation
  | invalidArgument
  deriving DecidableEq, Repr

/-- BUSYOP: the waiting command that is suspended (R48, R90). -/
inductive BusyOp where
  | none
  | startGuard
  | readProbe
  deriving DecidableEq, Repr

/-- One access of the host's program (R91, R92): `MemRead`, `MemWrite` at an address of the host's
space with a width in bytes, and `poll`, which repeats `rd STATUS` until BUSY reads 0. -/
inductive HostOp where
  | read (addr width : Nat)
  | write (addr width : Nat) (v : Word)
  | poll
  deriving DecidableEq, Repr

/-- Whose step it is (R13): the host's next access, a Counter tick (R210), the Bridge's latch (R220)
or invoke (R221), or the host's CallbackReturn (R222). -/
inductive Turn where
  | host
  | counter
  | latch
  | invoke
  | callbackReturn
  deriving DecidableEq, Repr

/-- What the block gives the host: the word of a register read at an address, or `Callback(h)`
(R16, R221). -/
inductive Output where
  | readData (addr : Nat) (v : Word)
  | callback (h : Word)
  deriving DecidableEq, Repr

/-- A step that the spec does not admit (93_implementation_defined.md: treatment `stuck`). The
block is not harmed by it; the scheduled agent has no such step. Each is safe: the model stops where
the spec gives no step. -/
inductive Fault where
  /-- Raised by a host access whose width is not 4 bytes (R61). Safe. -/
  | accessWidth
  /-- Raised by a host access outside the 128-byte window at BASE (R60, R64). Safe. -/
  | outsideWindow
  /-- Raised by a host access whose offset is not a multiple of 4 (R62). Safe. -/
  | misaligned
  /-- Raised by a host access to an offset that R49 does not list (R63). Safe. -/
  | unmapped
  /-- Raised by a host write while STATUS.BUSY = 1 (R68, R246 c). Safe. -/
  | writeWhileBusy
  /-- Raised by a host turn with no access left in its program (R263). Safe. -/
  | programEnded
  /-- Raised by a Counter turn while CS_HW = NOCLK (R210). Safe. -/
  | tickDisabled
  /-- Raised by a latch turn whose condition R220 does not hold. Safe. -/
  | latchDisabled
  /-- Raised by an invoke turn whose condition R221 does not hold. Safe. -/
  | invokeDisabled
  /-- Raised by a CallbackReturn turn while no callback is active (R222) or while BUSY = 1
  (R68; log entry 7). Safe. -/
  | returnDisabled
  deriving DecidableEq, Repr

/-- Why the model does not run at all. -/
inductive Refusal where
  /-- Raised by an arm of `exec` whose command has no meaning yet; no arm does. Safe. -/
  | notModelled (mnemonic : String)
  /-- Raised by `step` where the parameters fail R11: "the model refuses to build an instance that
  fails one" (I13). Safe. -/
  | illFormedInstance
  deriving DecidableEq, Repr

/-- The state of one instance (R30, R52) with its parameters, inputs and outputs. -/
structure State where
  /-- The instance's parameters; no step writes them (R6 to R11, R64; log entry 1). -/
  par : Params
  /-- STATE, the lifecycle state (R32). -/
  tstate : TimerState
  /-- CS_SEL, the selected ClockSelect code, 0 = NOCLK (R33, R34). -/
  csSel : Nat
  /-- CS_HW, the ClockSelect code the counter runs with, 0 = NOCLK (R33, R35). -/
  csHw : Nat
  /-- TOP, R bits (R36). -/
  top : Nat
  /-- CNT, R bits (R37). -/
  cnt : Nat
  /-- DIR (R37). -/
  dir : Dir
  /-- CB, the callback handle, 0 = none (R38). -/
  cb : Word
  /-- IE, the interrupt enable (R39). -/
  ie : Bool
  /-- PEND, the pending-event flag (R40). -/
  pend : Bool
  /-- INFLIGHT, the handle of a latched event, 0 = none (R41). -/
  inflight : Word
  /-- ACTIVE: an invoked callback has not returned (R52). -/
  active : Bool
  /-- FRESH: no tick since START wrote the counter in a SYM instance (R42). -/
  fresh : Bool
  /-- OCE, one enable bit per channel (R43). -/
  oce : List Bool
  /-- CMP, one compare value of R bits per channel (R44). -/
  cmp : List Nat
  /-- ARG0 (R45). -/
  arg0 : Word
  /-- ARG1 (R45). -/
  arg1 : Word
  /-- DATA (R46). -/
  data : Word
  /-- STATUS.FAIL (R47). -/
  fail : Bool
  /-- STATUS.CAUSE (R47). -/
  cause : Cause
  /-- BUSYOP (R48); STATUS.BUSY is `busyOp ≠ none` (R47). -/
  busyOp : BusyOp
  /-- V1, the first snapshot of a READ probe, R bits (R48). -/
  v1 : Nat
  /-- INPUT: the host's program, its accesses in program order (R69, R263; log entry 3). -/
  prog : List HostOp
  /-- INPUT: the schedule, whose step comes next (R13, R263; log entry 3). -/
  sched : List Turn
  /-- OUTPUT: words read and callbacks emitted, oldest first (R16, R221; log entry 10). -/
  trace : List Output
  /-- The index of the next free value (log entry 5). -/
  freeIdx : Nat
  deriving DecidableEq, Repr

/-- Reset of an instance: every element of R51 at its value, no input and no output. -/
def State.resetOf (p : Params) : State :=
  { par := p
    tstate := .uninitialized, csSel := 0, csHw := 0
    top := 0, cnt := 0, dir := .up
    cb := 0, ie := false, pend := false, inflight := 0, active := false, fresh := false
    oce := List.replicate p.nch false, cmp := List.replicate p.nch 0
    arg0 := 0, arg1 := 0, data := 0
    fail := false, cause := .none, busyOp := .none, v1 := 0
    prog := [], sched := [], trace := [], freeIdx := 0 }

/-- The machine right after reset (R51, R240), for the instance of log entry 2. -/
def State.reset : State := State.resetOf resetParams

end Sys2Proof.Machine
end

