-- ==== Sys2Proof/Machine/Flags.lean ====
section
/-! DEFINITION. The codes of the status fields and the STATUS word (R32, R47, R200). -/

namespace Sys2Proof.Machine

/-- The code of a TimerState (R32). -/
def timerStateCode : TimerState → Nat
  | .uninitialized => 0
  | .initializing => 1
  | .ready => 2
  | .running => 3
  | .stopped => 4

/-- The code of a failure cause (R47, R200). -/
def causeCode : Cause → Nat
  | .none => 0
  | .stateViolation => 1
  | .rangeViolation => 2
  | .invalidArgument => 3

/-- STATUS.BUSY: "1 while a waiting command … is suspended" (R47). -/
def busy (s : State) : Bool := decide (s.busyOp ≠ .none)

/-- The STATUS register: BUSY in bit 0, FAIL in bit 1, CAUSE in bits 3:2, STATE in bits 6:4, every
other bit 0 (R47). -/
def statusWord (s : State) : Word :=
  BitVec.ofNat 32
    ((busy s).toNat + 2 * s.fail.toNat + 4 * causeCode s.cause + 16 * timerStateCode s.tstate)

end Sys2Proof.Machine
end

