-- ==== Sys2Proof/Machine/Operands.lean ====
section
/-! DEFINITION. The operand forms of R82 and R84: every numeric operand is a whole unsigned 32-bit
register, read at the command's issue step. -/

namespace Sys2Proof.Machine

/-- The period of INIT and SET_PERIOD: ARG0, in microseconds; 0 is legal (R82). -/
def periodOperand (s : State) : Nat := s.arg0.toNat

/-- The period override of PWM_ENABLE: ARG1, where 0 means "no period override" (R82). -/
def periodOverride (s : State) : Option Nat := if s.arg1 = 0 then none else some s.arg1.toNat

/-- The duty of PWM_ENABLE and PWM_SET_DUTY: ARG0, resolution-scaled (R82). -/
def dutyOperand (s : State) : Nat := s.arg0.toNat

/-- The callback handle of INIT: ARG1, where 0 means "no callback" (R82). -/
def initHandle (s : State) : Option Word := if s.arg1 = 0 then none else some s.arg1

/-- The callback handle of ATTACH: ARG0, where 0 is the "null/empty callback" (R82). -/
def attachHandle (s : State) : Option Word := if s.arg0 = 0 then none else some s.arg0

end Sys2Proof.Machine
end

