-- ==== Sys2Proof/Machine/Params.lean ====
section
/-! DEFINITION. Derived constants of an instance (R9, R12) and its well-formedness (R11). -/

namespace Sys2Proof.Machine

/-- The ClockSelect code NOCLK, "clock stopped" (R12, R33). -/
def noClk : Nat := 0

/-- MAXTOP = 2^R - 1 (R6). -/
def maxTop (p : Params) : Nat := 2 ^ p.r - 1

/-- n, the number of prescaler ratios and the greatest ClockSelect code (R12). -/
def nCodes (p : Params) : Nat := p.table.length

/-- D(MODE), the cycle divisor (R9). -/
def modeDivisor : Mode → Nat
  | .ctc => 1
  | .sym => 2

/-- ratio(c) = TABLE[c-1] for a code 1 ≤ c ≤ n (R12). -/
def ratio (p : Params) (c : Nat) : Nat := p.table.getD (c - 1) 1

/-- shift(c), the log2 of the ratio; shift(NOCLK) = 0 (R12). -/
def shift (p : Params) (c : Nat) : Nat := if c = noClk then 0 else Nat.log2 (ratio p c)

/-- R11 (a): R is 8 or 16. -/
def resolutionOk (p : Params) : Bool := decide (p.r = 8 ∨ p.r = 16)

/-- R11 (b): the divisor `F_HZ div 1000` is not zero. -/
def clockOk (p : Params) : Bool := decide (1000 ≤ p.fHz)

/-- R8: the ratios after `t` rise strictly, each a power of two and a multiple of the one before. -/
def ratiosOk : Nat → List Nat → Bool
  | _, [] => true
  | t, u :: us => decide (t < u ∧ u = 2 ^ Nat.log2 u ∧ u % t = 0) && ratiosOk u us

/-- R8 and R11 (c): TABLE[0] = 1, the later ratios as R8 says, and at most seven of them. -/
def tableOk : List Nat → Bool
  | [] => false
  | t :: ts => decide (t = 1 ∧ ts.length < 7) && ratiosOk t ts

/-- R10 and R11 (d): the number of channels fits the mode family. -/
def channelsOk (p : Params) : Bool :=
  match p.mode with
  | .ctc => decide (p.nch = 0)
  | .sym => decide (1 ≤ p.nch ∧ p.nch ≤ 15)

/-- R11 (e): every elapsed-time result fits the 32-bit DATA register. -/
def conversionOk (p : Params) : Bool :=
  decide (((2 ^ (p.r + 1) - 2) * 1000) / (p.fHz / 1000) * 2 ^ shift p (nCodes p) < 2 ^ 32)

/-- R64: BASE is a multiple of 128. -/
def baseOk (p : Params) : Bool := decide (p.base % 128 = 0)

/-- A well-formed instance (R11, with R64 for its base). -/
def paramsOk (p : Params) : Bool :=
  resolutionOk p && clockOk p && tableOk p.table && channelsOk p && conversionOk p && baseOk p

end Sys2Proof.Machine
end

