-- ==== Sys2Proof/Machine/Selector.lean ====
section
/-! DEFINITION. The prescaler selector `select` (40_prescaler_selector.md, R100 to R104): a pure
function of the period and the instance's parameters. -/

namespace Sys2Proof.Machine

/-- The result of `select` (R100): a ClockSelect code, a top value, and whether the request could be
satisfied without a clamp. -/
structure Selection where
  cs : Nat
  top : Nat
  inRange : Bool
  deriving DecidableEq, Repr

/-- The cycle count of R101: `F_HZ × P / (D(MODE) × 1_000_000)`, rounded half up, exact on ℕ. -/
def cycles (p : Params) (period : Nat) : Nat :=
  (2 * p.fHz * period + modeDivisor p.mode * 1000000) / (2 * modeDivisor p.mode * 1000000)

/-- R102: the first ratio of the list whose quotient fits `limit`, with the code `i + 1` for the
ratio at place `i`. -/
def findRatio (limit c : Nat) : Nat → List Nat → Option (Nat × Nat)
  | _, [] => none
  | i, t :: ts => if c / t < limit then some (i + 1, c / t) else findRatio limit c (i + 1) ts

/-- The source's step-by-step form of the search (R103): `v` is the quotient by `prev`, and each step
divides it by the incremental factor `t div prev`, truncating. -/
def findIncremental (limit : Nat) : Nat → Nat → Nat → List Nat → Option (Nat × Nat)
  | _, _, _, [] => none
  | v, prev, i, t :: ts =>
    if v / (t / prev) < limit then some (i + 1, v / (t / prev))
    else findIncremental limit (v / (t / prev)) t (i + 1) ts

/-- The ratio search of R102 with the clamp of R104, from a cycle count. -/
def selectCycles (p : Params) (c : Nat) : Selection :=
  match findRatio (2 ^ p.r) c 0 p.table with
  | some (cs, top) => { cs := cs, top := top, inRange := true }
  | none => { cs := nCodes p, top := maxTop p, inRange := false }

/-- `select(P)` (R100): the prescaler and top value for a period in microseconds. -/
def select (p : Params) (period : Nat) : Selection := selectCycles p (cycles p period)

end Sys2Proof.Machine
end

