-- ==== Sys2Proof/Machine/Ops.lean ====
section
/-! DEFINITION. The named operations that the commands share: the result of a command (R16, R200),
the selection write (R121), the channel files (R43, R44), and the interrupt bridge: latching,
taking an event and returning from it (R220 to R222). -/

namespace Sys2Proof.Machine

/-- Write FAIL and CAUSE, as every command does at its completion (R47). -/
def State.setResult (s : State) (fail : Bool) (cause : Cause) : State :=
  { s with fail := fail, cause := cause }

/-- `finish Ok`: "`FAIL <- 0`, `CAUSE <- 0`" with the command's writes kept (R16). -/
def finishOk (s : State) : State := s.setResult false .none

/-- `finish Fail(cause)`: the FAIL status with "the writes made so far" kept (R16). -/
def finishFail (cause : Cause) (s : State) : State := s.setResult true cause

/-- `raise Fail(cause)`: "state is as before the command except FAIL and CAUSE" (R16, R120). `s` is
the state before the command. -/
def raiseFail (cause : Cause) (s : State) : State := s.setResult true cause

/-- Finish with Ok, or with RangeViolation where the request was out of range (R125, R127, R182). -/
def finishRange (ok : Bool) (s : State) : State :=
  if ok then finishOk s else finishFail .rangeViolation s

/-- An illegal command word "completes at once with `FAIL = 1`, `CAUSE = InvalidArgument`, and
changes no other state" (R86). -/
def illegalCommand (s : State) : State := raiseFail .invalidArgument s

/-- Write TOP and CS_SEL together, and CS_HW too while Running (R121, R251). -/
def State.setSelection (s : State) (sel : Selection) : State :=
  { s with
    top := sel.top
    csSel := sel.cs
    csHw := if s.tstate = .running then sel.cs else s.csHw }

/-- `apply_selection(P)` (R121): the state with the selection written, and whether the period was in
range. The clamped selection is written like any other (R104). -/
def applySelection (period : Nat) (s : State) : State × Bool :=
  let sel := select s.par period
  (s.setSelection sel, sel.inRange)

/-- `x[OCE][ch]` (R16, R43). -/
def oceAt (s : State) (ch : Nat) : Bool := s.oce.getD ch false

/-- `x[CMP][ch]` (R16, R44). -/
def cmpAt (s : State) (ch : Nat) : Nat := s.cmp.getD ch 0

/-- `x[OCE][ch] <- b` (R16, R43). -/
def State.setOce (s : State) (ch : Nat) (b : Bool) : State := { s with oce := s.oce.set ch b }

/-- `x[CMP][ch] <- v` (R16, R44). -/
def State.setCmp (s : State) (ch v : Nat) : State := { s with cmp := s.cmp.set ch v }

/-- Give the host an output (R16). -/
def State.emit (s : State) (o : Output) : State := { s with trace := s.trace ++ [o] }

/-- The Bridge has a latch step exactly when this holds (R220, R71). -/
def latchEnabled (s : State) : Bool :=
  s.pend && s.ie && !(busy s) && decide (s.inflight = 0)

/-- Latch (R220): the pending event goes into flight with the handle of CB; with no callback
attached "the event, if it fires at all, is a no-op". -/
def latch (s : State) : State :=
  { s with pend := false, inflight := if s.cb ≠ 0 then s.cb else s.inflight }

/-- The Bridge has an invoke step exactly when this holds (R221, R71). -/
def invokeEnabled (s : State) : Bool :=
  decide (s.inflight ≠ 0) && !s.active && !(busy s)

/-- Invoke (R221): emit `Callback(h)` with the handle captured at latching; the callback is active. -/
def invoke (s : State) : State :=
  { s.emit (.callback s.inflight) with active := true, inflight := 0 }

/-- The host has CallbackReturn only while a callback is active (R222); while BUSY = 1 its only
moves are reads (R68). DEDUCED, safe (log entry 7). -/
def returnEnabled (s : State) : Bool := s.active && !(busy s)

/-- CallbackReturn (R222). -/
def callbackReturn (s : State) : State := { s with active := false }

end Sys2Proof.Machine
end

