-- ==== Sys2Proof/Machine/CounterRead.lean ====
section
/-! DEFINITION. READ (42_counter_read.md): the snapshot, the direction probe, the fold and the unit
conversion, and the completion step of a probing READ. -/

namespace Sys2Proof.Machine

/-- `fold(v) = sat_sub(2 × TOP, v)` (R165); subtraction on ℕ stops at 0. -/
def fold (top v : Nat) : Nat := 2 * top - v

/-- `to_us(val, c)` (R166): multiply, divide by the truncated `F_HZ div 1000`, then shift left. -/
def toUs (p : Params) (val c : Nat) : Nat := (val * 1000) / (p.fHz / 1000) * 2 ^ shift p c

/-- Convert a counter value with the ratio of CS_SEL, write DATA and finish (R160, R166). The value
is below 2^32 in a well-formed instance (R11 e; log entry 18). -/
def deliverReading (val : Nat) (s : State) : State :=
  finishOk { s with data := BitVec.ofNat 32 (toUs s.par val s.csSel) }

/-- The direction probe is taken only where a SYM counter runs (R162, R163, R164). -/
def probeApplies (s : State) : Bool := decide (s.par.mode = .sym ∧ s.csHw ≠ noClk)

/-- READ, its one step or its issue step (R160). -/
def execRead (s : State) : Host.Outcome State Fault Refusal :=
  if s.tstate = .running ∨ s.tstate = .stopped then
    if probeApplies s then .next { s with v1 := s.cnt, busyOp := .readProbe }
    else .next (deliverReading s.cnt s)
  else .next (raiseFail .stateViolation s)

/-- The value a probe reads: "descending exactly when `v2 < v1`; the value folded and converted is
the first snapshot" (R163). -/
def probeValue (top v1 v2 : Nat) : Nat := if v2 < v1 then fold top v1 else v1

/-- The completion step of a probing READ, after the tick's own effects (R160, R214). -/
def completeRead (s : State) : State :=
  deliverReading (probeValue s.top s.v1 s.cnt) { s with busyOp := .none }

end Sys2Proof.Machine
end

