-- ==== Sys2Proof/Machine/Lifecycle.lean ====
section
/-! DEFINITION. The lifecycle commands (41_lifecycle.md): INIT, SET_PERIOD, START, STOP, RESUME,
ATTACH, DETACH, and the completion step of a guarded START. A meaning describes a command issued
while BUSY = 0; the CMD write sees to that (R67 a; log entry 16). -/

namespace Sys2Proof.Machine

/-- INIT (R125). STATE passes through Initializing inside this step only, so it is not written. -/
def execInit (s : State) : Host.Outcome State Fault Refusal :=
  if s.tstate = .uninitialized then
    let (s1, ok) := applySelection (periodOperand s) s
    let s2 := { s1 with cb := (initHandle s).getD s.cb, tstate := .ready }
    .next (finishRange ok s2)
  else .next (raiseFail .stateViolation s)

/-- SET_PERIOD (R127). -/
def execSetPeriod (s : State) : Host.Outcome State Fault Refusal :=
  let (s1, ok) := applySelection (periodOperand s) s
  .next (finishRange ok s1)

/-- `guard_applies` (R133). -/
def guardApplies (s : State) : Bool :=
  decide (s.par.mode = .sym ∧ s.cb ≠ 0 ∧ s.csSel ≠ noClk)

/-- START's writes before its guard (R130): IE off, the counter reset, the clock applied, and FRESH
set in a SYM instance. -/
def startCounter (s : State) : State :=
  { s with
    ie := false
    cnt := 0
    dir := .up
    csHw := s.csSel
    fresh := if s.par.mode = .sym then true else s.fresh }

/-- START, its one step or its issue step (R130, R133). -/
def execStart (s : State) : Host.Outcome State Fault Refusal :=
  if s.tstate = .ready ∨ s.tstate = .stopped then
    let s1 := startCounter s
    if guardApplies s then .next { s1 with busyOp := .startGuard }
    else .next (finishOk { s1 with ie := decide (s.cb ≠ 0), tstate := .running })
  else .next (raiseFail .stateViolation s)

/-- The completion step of a guarded START (R130, R214). -/
def completeStart (s : State) : State :=
  finishOk { s with ie := true, tstate := .running, busyOp := .none }

/-- STOP (R137). -/
def execStop (s : State) : Host.Outcome State Fault Refusal :=
  .next (finishOk { s with csHw := noClk, tstate := .stopped })

/-- RESUME (R139). -/
def execResume (s : State) : Host.Outcome State Fault Refusal :=
  if s.tstate = .stopped then
    .next (finishOk { s with csHw := s.csSel, tstate := .running })
  else .next (raiseFail .stateViolation s)

/-- ATTACH (R141). -/
def execAttach (s : State) : Host.Outcome State Fault Refusal :=
  match attachHandle s with
  | none => .next (raiseFail .invalidArgument s)
  | some h =>
    .next (finishOk { s with cb := h, ie := if s.tstate = .running then true else s.ie })

/-- DETACH (R143). -/
def execDetach (s : State) : Host.Outcome State Fault Refusal :=
  .next (finishOk { s with cb := 0, ie := if s.tstate = .running then false else s.ie })

end Sys2Proof.Machine
end

