-- ==== Sys2Proof/Machine/Counter.lean ====
section
/-! DEFINITION. The Counter's tick (60_exceptions.md, R210 to R215): the count, the pending event,
and the completion of a waiting command, in that order and in one step (R210, R225). -/

namespace Sys2Proof.Machine

/-- What one count does: the new CNT and DIR, and whether it raises the instance's event (R215). -/
structure Count where
  cnt : Nat
  dir : Dir
  event : Bool
  deriving DecidableEq, Repr

/-- The count of a CTC instance (R211); the event is CompareMatch. DIR is not written. -/
def countCtc (r top cnt : Nat) (dir : Dir) : Count :=
  if cnt = top then { cnt := 0, dir := dir, event := true }
  else { cnt := (cnt + 1) % 2 ^ r, dir := dir, event := false }

/-- The count of a SYM instance (R212); the event is Overflow, raised on arrival at 0. The last
branch is taken only with `cnt ≥ 1` in a state of `Safety.Inv`; below that the subtraction stops at
0 (R14, `sat_sub`; log entry 14). -/
def countSym (top cnt : Nat) (dir : Dir) : Count :=
  if top = 0 then { cnt := 0, dir := .up, event := true }
  else if dir = .up ∧ cnt < top then
    { cnt := cnt + 1, dir := if cnt + 1 = top then .down else .up, event := false }
  else if cnt - 1 = 0 then { cnt := 0, dir := .up, event := true }
  else { cnt := cnt - 1, dir := .down, event := false }

/-- The count of an instance (R9, R211, R212). -/
def count (s : State) : Count :=
  match s.par.mode with
  | .ctc => countCtc s.par.r s.top s.cnt s.dir
  | .sym => countSym s.top s.cnt s.dir

/-- `draw_bool()` is asked only where MODE = SYM, FRESH = 1 and IE = 1 (R213). -/
def drawAsked (s : State) : Bool := decide (s.par.mode = .sym) && s.fresh && s.ie

/-- `spurious` of R213: a free value where it is asked (I6; log entry 5). -/
def spurious (s : State) : Bool := drawAsked s && Config.drawBool s.freeIdx

/-- The tick's own effects: the count, then PEND and FRESH (R211 to R213). A draw that was asked
takes the next free value. -/
def tickCounter (s : State) : State :=
  let c := count s
  { s with
    cnt := c.cnt
    dir := c.dir
    pend := s.pend || c.event || spurious s
    fresh := false
    freeIdx := if drawAsked s then s.freeIdx + 1 else s.freeIdx }

/-- The completion step of the waiting command, if there is one (R214). -/
def completeWait (s : State) : State :=
  match s.busyOp with
  | .none => s
  | .startGuard => completeStart s
  | .readProbe => completeRead s

/-- The Counter has a step exactly when CS_HW is not NOCLK (R210). -/
def tickEnabled (s : State) : Bool := decide (s.csHw ≠ noClk)

/-- One tick (R210, R214). -/
def tick (s : State) : State := completeWait (tickCounter s)

end Sys2Proof.Machine
end

