-- ==== Sys2Proof/WellFormed.lean ====
section
/-! DEFINITION. Which commands an encoding and an instance admit (R80, R85). -/

namespace Sys2Proof

/-- The channel number fits the 4-bit CH field (R80, R81: "an unsigned channel number 0 … 15"). -/
def Instr.channelFits : Instr → Bool
  | .init => true
  | .setPeriod => true
  | .start => true
  | .stop => true
  | .resume => true
  | .attach => true
  | .detach => true
  | .read => true
  | .pwmEnable ch => decide (ch < 16)
  | .pwmDisable ch => decide (ch < 16)
  | .pwmSetDuty ch => decide (ch < 16)

/-- The command is one of the three PWM commands of 43_pwm.md. -/
def Instr.isPwm : Instr → Bool
  | .init => false
  | .setPeriod => false
  | .start => false
  | .stop => false
  | .resume => false
  | .attach => false
  | .detach => false
  | .read => false
  | .pwmEnable _ => true
  | .pwmDisable _ => true
  | .pwmSetDuty _ => true

/-- The instances that have the command (R85, last column). -/
def Instr.existsIn (m : Mode) (i : Instr) : Bool :=
  match m with
  | .sym => true
  | .ctc => !i.isPwm

/-- A command that a word of an instance of this mode can name. -/
def Instr.wf (m : Mode) (i : Instr) : Bool :=
  i.channelFits && i.existsIn m

end Sys2Proof
end

