-- ==== Sys2Proof/Decode.lean ====
section
/-! DEFINITION. Decoding and encoding of the command word (R80 to R87), written from the opcode map
R85. The decoder is total (R87); an illegal word (R86) is rejected by name. -/

namespace Sys2Proof

/-- Why a command word is illegal (R86), or why bytes hold no word at all. -/
inductive DecodeError where
  /-- Fewer than the four bytes of a word (R61: every access is a whole word). -/
  | truncated
  /-- R86 (a): OP is 0x0 or 0xC to 0xF. -/
  | reservedOp
  /-- R86 (b): RSV is not 0. -/
  | reservedBits
  /-- R86 (c): CH is not 0 on a command without a channel. -/
  | channelNotZero
  /-- R86 (d): a PWM command in a CTC instance. -/
  | absentInCtc
  deriving DecidableEq, Repr

/-- What a word decodes to: "one command of rule R85 or … "illegal"" (R87). -/
inductive Decoded where
  | command (i : Instr)
  | illegal (why : DecodeError)
  deriving DecidableEq, Repr

/-- OP, bits 3:0 (R80). -/
def opField (w : Word) : BitVec 4 := w.extractLsb' 0 4

/-- CH, bits 7:4 (R80). -/
def chField (w : Word) : BitVec 4 := w.extractLsb' 4 4

/-- RSV, bits 31:8 (R80). -/
def rsvField (w : Word) : BitVec 24 := w.extractLsb' 8 24

/-- A command without a channel: CH must be 0 (R80, R86 c). -/
def decodePlain (ch : BitVec 4) (i : Instr) : Decoded :=
  if ch = 0 then .command i else .illegal .channelNotZero

/-- A PWM command: it exists only where MODE is SYM (R85, R86 d). -/
def decodePwm (m : Mode) (i : Instr) : Decoded :=
  match m with
  | .sym => .command i
  | .ctc => .illegal .absentInCtc

/-- Decode one command word in an instance of mode `m` (R80, R81, R85, R86). -/
def decodeWord (m : Mode) (w : Word) : Decoded :=
  if rsvField w = 0 then
    match (opField w).toNat with
    | 0x1 => decodePlain (chField w) .init
    | 0x2 => decodePlain (chField w) .setPeriod
    | 0x3 => decodePlain (chField w) .start
    | 0x4 => decodePlain (chField w) .stop
    | 0x5 => decodePlain (chField w) .resume
    | 0x6 => decodePlain (chField w) .attach
    | 0x7 => decodePlain (chField w) .detach
    | 0x8 => decodePlain (chField w) .read
    | 0x9 => decodePwm m (.pwmEnable (chField w).toNat)
    | 0xA => decodePwm m (.pwmDisable (chField w).toNat)
    | 0xB => decodePwm m (.pwmSetDuty (chField w).toNat)
    | _ => .illegal .reservedOp
  else .illegal .reservedBits

/-- Byte `k` of a word: "bit 8k+7 … 8k of a register is byte off + k (little-endian)" (R65). -/
def byteLane (w : Word) (k : Nat) : Byte := w.extractLsb' (8 * k) 8

/-- The four bytes of a word, the one at the lowest address first (R65). -/
def wordBytes (w : Word) : List Byte := [byteLane w 0, byteLane w 1, byteLane w 2, byteLane w 3]

/-- The word whose bytes, lowest address first, are these (R65). -/
def wordOfBytes (b0 b1 b2 b3 : Byte) : Word := b3 ++ b2 ++ b1 ++ b0

/-- Decode the word at the head of a list of bytes, and give back the bytes after it. -/
def decodeBytes (m : Mode) : List Byte → Decoded × List Byte
  | b0 :: b1 :: b2 :: b3 :: rest => (decodeWord m (wordOfBytes b0 b1 b2 b3), rest)
  | rest => (.illegal .truncated, rest)

/-- The operation code OP of a command (R85). -/
def Instr.opcode : Instr → Nat
  | .init => 0x1
  | .setPeriod => 0x2
  | .start => 0x3
  | .stop => 0x4
  | .resume => 0x5
  | .attach => 0x6
  | .detach => 0x7
  | .read => 0x8
  | .pwmEnable _ => 0x9
  | .pwmDisable _ => 0xA
  | .pwmSetDuty _ => 0xB

/-- The CH field of a command: its channel, 0 for a command without one (R80, R84). -/
def Instr.channel : Instr → Nat
  | .init => 0
  | .setPeriod => 0
  | .start => 0
  | .stop => 0
  | .resume => 0
  | .attach => 0
  | .detach => 0
  | .read => 0
  | .pwmEnable ch => ch
  | .pwmDisable ch => ch
  | .pwmSetDuty ch => ch

/-- The command word of a well-formed command: OP in bits 3:0, CH in bits 7:4, RSV 0 (R80, R92). -/
def encode (i : Instr) : Word := BitVec.ofNat 32 (i.opcode + 16 * i.channel)

/-- The command that the decoder reads from the opcode table's word `w` of `nbits` bits: the word is
laid out as four bytes (R65) and decoded in a SYM instance, the family that has every row (R85). -/
def decodeTableWord (nbits w : Nat) : Option Instr :=
  if nbits ≤ 32 then
    match (decodeBytes .sym (wordBytes (BitVec.ofNat 32 (w % 2 ^ nbits)))).1 with
    | .command i => some i
    | .illegal _ => none
  else none

end Sys2Proof
end

