-- ==== Sys2Proof/Machine/Pwm.lean ====
section
/-! DEFINITION. The PWM commands (43_pwm.md). In a CTC instance their words are illegal (R86 d), and
so is the command: InvalidArgument before any other cause (R201; log entry 15). -/

namespace Sys2Proof.Machine

/-- `duty_to_cmp(d) = (TOP × d) div 2^R` (R180), with TOP as it stands. -/
def dutyToCmp (p : Params) (top d : Nat) : Nat := top * d / 2 ^ p.r

/-- A duty is in range up to `2^R` (R180). -/
def dutyInRange (p : Params) (d : Nat) : Bool := decide (d ≤ 2 ^ p.r)

/-- The legal states of PWM_ENABLE and PWM_SET_DUTY: Ready, Running, Stopped (R181, R182). -/
def configured (s : State) : Bool :=
  match s.tstate with
  | .uninitialized => false
  | .initializing => false
  | .ready => true
  | .running => true
  | .stopped => true

/-- PWM_ENABLE (R182): the period first, then the enable bit, then the duty against the TOP just
written. -/
def execPwmEnable (ch : Nat) (s : State) : Host.Outcome State Fault Refusal :=
  if s.par.mode = .ctc then .next (illegalCommand s)
  else if !(configured s) then .next (raiseFail .stateViolation s)
  else if s.par.nch ≤ ch then .next (raiseFail .invalidArgument s)
  else
    let (s1, okPeriod) :=
      match periodOverride s with
      | none => (s, true)
      | some period => applySelection period s
    let s2 := s1.setOce ch true
    let d := dutyOperand s
    if dutyInRange s.par d then
      .next (finishRange okPeriod (s2.setCmp ch (dutyToCmp s2.par s2.top d)))
    else .next (finishFail .rangeViolation s2)

/-- PWM_DISABLE (R184): legal in every state. -/
def execPwmDisable (ch : Nat) (s : State) : Host.Outcome State Fault Refusal :=
  if s.par.mode = .ctc then .next (illegalCommand s)
  else if s.par.nch ≤ ch then .next (raiseFail .invalidArgument s)
  else .next (finishOk (s.setOce ch false))

/-- PWM_SET_DUTY (R181). -/
def execPwmSetDuty (ch : Nat) (s : State) : Host.Outcome State Fault Refusal :=
  if s.par.mode = .ctc then .next (illegalCommand s)
  else if !(configured s) then .next (raiseFail .stateViolation s)
  else if s.par.nch ≤ ch then .next (raiseFail .invalidArgument s)
  else
    let d := dutyOperand s
    if dutyInRange s.par d then .next (finishOk (s.setCmp ch (dutyToCmp s.par s.top d)))
    else .next (raiseFail .rangeViolation s)

end Sys2Proof.Machine
end

