-- ==== Sys2Proof/Machine/Dispatch.lean ====
section
/-! DEFINITION. One arm per command: its meaning (R85). -/

namespace Sys2Proof.Machine

def exec (i : Instr) (s : State) : Host.Outcome State Fault Refusal :=
  match i with
  | .init => Sys2Proof.Machine.execInit s
  | .setPeriod => Sys2Proof.Machine.execSetPeriod s
  | .start => Sys2Proof.Machine.execStart s
  | .stop => Sys2Proof.Machine.execStop s
  | .resume => Sys2Proof.Machine.execResume s
  | .attach => Sys2Proof.Machine.execAttach s
  | .detach => Sys2Proof.Machine.execDetach s
  | .read => Sys2Proof.Machine.execRead s
  | .pwmEnable ch => Sys2Proof.Machine.execPwmEnable ch s
  | .pwmDisable ch => Sys2Proof.Machine.execPwmDisable ch s
  | .pwmSetDuty ch => Sys2Proof.Machine.execPwmSetDuty ch s

end Sys2Proof.Machine
end

