-- ==== Sys2Proof/Machine/Window.lean ====
section
/-! DEFINITION. The register window (R49, R60 to R68): the map, the words the registers read as, the
admission of an access, and the effect of a write. -/

namespace Sys2Proof.Machine

/-- The registers of the map R49. -/
inductive Reg where
  | cmd
  | arg0
  | arg1
  | status
  | data
  | ctrl
  | top
  | cnt
  | cb
  | inflight
  | oce
  | cmp (ch : Nat)
  deriving DecidableEq, Repr

/-- The offset of a register (R49). -/
def regOffset : Reg → Nat
  | .cmd => 0x00
  | .arg0 => 0x04
  | .arg1 => 0x08
  | .status => 0x0C
  | .data => 0x10
  | .ctrl => 0x14
  | .top => 0x18
  | .cnt => 0x1C
  | .cb => 0x20
  | .inflight => 0x24
  | .oce => 0x28
  | .cmp ch => 0x40 + 4 * ch

/-- The register at an offset, none where R49 lists none, "including `0x40 + 4·ch` with
`ch ≥ NCH`" (R63). -/
def regAt (p : Params) (off : Nat) : Option Reg :=
  match off with
  | 0x00 => some .cmd
  | 0x04 => some .arg0
  | 0x08 => some .arg1
  | 0x0C => some .status
  | 0x10 => some .data
  | 0x14 => some .ctrl
  | 0x18 => some .top
  | 0x1C => some .cnt
  | 0x20 => some .cb
  | 0x24 => some .inflight
  | 0x28 => some .oce
  | o =>
    if 0x40 ≤ o ∧ o % 4 = 0 ∧ (o - 0x40) / 4 < p.nch then some (.cmp ((o - 0x40) / 4)) else none

/-- The address of a register in the host's address space (R64). -/
def regAddr (p : Params) (reg : Reg) : Nat := p.base + regOffset reg

/-- The code of MODE in CTRL (R49). -/
def modeCode : Mode → Nat
  | .ctc => 0
  | .sym => 1

/-- The CTRL register (R49, R50). -/
def ctrlWord (s : State) : Word :=
  BitVec.ofNat 32
    (s.csSel + 2 ^ 3 * s.csHw + 2 ^ 6 * s.ie.toNat + 2 ^ 7 * s.pend.toNat
      + 2 ^ 8 * modeCode s.par.mode + 2 ^ 9 * (if s.par.r = 16 then 1 else 0)
      + 2 ^ 10 * s.par.nch + 2 ^ 14 * nCodes s.par)

/-- The number whose bit `k` is the list's element `k`. -/
def bitsValue : List Bool → Nat
  | [] => 0
  | b :: bs => b.toNat + 2 * bitsValue bs

/-- The word a register reads as; CMD reads 0 (R49, R67 d). -/
def readReg (s : State) : Reg → Word
  | .cmd => 0
  | .arg0 => s.arg0
  | .arg1 => s.arg1
  | .status => statusWord s
  | .data => s.data
  | .ctrl => ctrlWord s
  | .top => BitVec.ofNat 32 s.top
  | .cnt => BitVec.ofNat 32 s.cnt
  | .cb => s.cb
  | .inflight => s.inflight
  | .oce => BitVec.ofNat 32 (bitsValue s.oce)
  | .cmp ch => BitVec.ofNat 32 (cmpAt s ch)

/-- The register that an access of `width` bytes at `addr` reaches, or why the access is not
admitted: width (R61), window (R60, R64), alignment (R62), map (R63). -/
def resolveAccess (p : Params) (addr width : Nat) : Except Fault Reg :=
  if width ≠ 4 then .error .accessWidth
  else if addr < p.base ∨ p.base + 128 ≤ addr then .error .outsideWindow
  else if (addr - p.base) % 4 ≠ 0 then .error .misaligned
  else match regAt p (addr - p.base) with
    | some reg => .ok reg
    | none => .error .unmapped

/-- A write of the command word: the command it encodes is issued, and an illegal word fails at once
(R67 a, R86). -/
def issue (w : Word) (s : State) : Host.Outcome State Fault Refusal :=
  match decodeWord s.par.mode w with
  | .command i => exec i s
  | .illegal _ => .next (illegalCommand s)

/-- The effect of an admitted write: CMD issues a command, ARG0 and ARG1 take the value, "A write to
any RO register … changes nothing" (R67). -/
def writeReg (v : Word) (s : State) : Reg → Host.Outcome State Fault Refusal
  | .cmd => issue v s
  | .arg0 => .next { s with arg0 := v }
  | .arg1 => .next { s with arg1 := v }
  | .status => .next s
  | .data => .next s
  | .ctrl => .next s
  | .top => .next s
  | .cnt => .next s
  | .cb => .next s
  | .inflight => .next s
  | .oce => .next s
  | .cmp _ => .next s

end Sys2Proof.Machine
end

