-- ==== Sys2Proof/Machine/Agents.lean ====
section
/-! DEFINITION. The agents' steps (R13): when each is enabled, what it does, and which agent steps
where the schedule is empty. -/

namespace Sys2Proof.Machine

/-- The host's access at the head of its program, with the rest of the program: a read gives the word
to the host and changes nothing else (R67 d); a write is not admitted while BUSY (R68); `poll`
reads STATUS and stays until BUSY reads 0 (R92). -/
def hostAccess (op : HostOp) (rest : List HostOp) (s : State) : Host.Outcome State Fault Refusal :=
  match op with
  | .read addr width =>
    match resolveAccess s.par addr width with
    | .ok reg => .next { s.emit (.readData addr (readReg s reg)) with prog := rest }
    | .error f => .fault f
  | .write addr width v =>
    match resolveAccess s.par addr width with
    | .ok reg =>
      if busy s then .fault .writeWhileBusy else writeReg v { s with prog := rest } reg
    | .error f => .fault f
  | .poll =>
    let s1 := s.emit (.readData (regAddr s.par .status) (statusWord s))
    .next (if busy s then s1 else { s1 with prog := rest })

/-- The host's step: the next access of its program, in program order (R69). -/
def hostStep (s : State) : Host.Outcome State Fault Refusal :=
  match s.prog with
  | [] => .fault .programEnded
  | op :: rest => hostAccess op rest s

/-- The host has a step where its next access is admitted (R61 to R63, R68). -/
def hostEnabled (s : State) : Bool :=
  match s.prog with
  | [] => false
  | .read addr width :: _ => (resolveAccess s.par addr width).toOption.isSome
  | .write addr width _ :: _ => (resolveAccess s.par addr width).toOption.isSome && !(busy s)
  | .poll :: _ => true

/-- An agent's step is enabled (R13, R210, R220, R221, R222). -/
def turnEnabled (s : State) : Turn → Bool
  | .host => hostEnabled s
  | .counter => tickEnabled s
  | .latch => latchEnabled s
  | .invoke => invokeEnabled s
  | .callbackReturn => returnEnabled s

/-- One step of the named agent; an agent with no step enabled is stuck, by name. -/
def takeTurn (t : Turn) (s : State) : Host.Outcome State Fault Refusal :=
  match t with
  | .host => hostStep s
  | .counter => if tickEnabled s then .next (tick s) else .fault .tickDisabled
  | .latch => if latchEnabled s then .next (latch s) else .fault .latchDisabled
  | .invoke => if invokeEnabled s then .next (invoke s) else .fault .invokeDisabled
  | .callbackReturn =>
    if returnEnabled s then .next (callbackReturn s) else .fault .returnDisabled

/-- The agents whose step is enabled. -/
def enabledTurns (s : State) : List Turn :=
  [Turn.host, .counter, .latch, .invoke, .callbackReturn].filter (turnEnabled s)

/-- Where the schedule is empty: one of the enabled agents, chosen by a free value; none where no
agent has a step (R13; log entry 4). -/
def freeTurn (s : State) : Option Turn :=
  (enabledTurns s)[Config.freeTurn s.freeIdx % (enabledTurns s).length]?

/-- Whose step comes next: the schedule's, or a free choice. -/
def nextTurn (s : State) : Option Turn :=
  match s.sched with
  | t :: _ => some t
  | [] => freeTurn s

/-- Consume the schedule's entry, or the free value that chose. -/
def consumeTurn (s : State) : State :=
  match s.sched with
  | _ :: ts => { s with sched := ts }
  | [] => { s with freeIdx := s.freeIdx + 1 }

/-- One step of a well-formed instance: the next agent's step. Where the schedule is empty and no
agent has a step enabled, the machine stands still and waits for the host (R241). -/
def agentStep (s : State) : Host.Outcome State Fault Refusal :=
  match nextTurn s with
  | some t => takeTurn t (consumeTurn s)
  | none => .next s

end Sys2Proof.Machine
end

