-- ==== Sys2Proof/Machine/HostProgram.lean ====
section
/-! DEFINITION. Host programs (R91, R92): raw port accesses by register name, and the
pseudo-instructions with their expansions. -/

namespace Sys2Proof.Machine

/-- `wr <REG>, <value>` (R91). -/
def wr (p : Params) (reg : Reg) (v : Word) : HostOp := .write (regAddr p reg) 4 v

/-- `rd <REG>` (R91). -/
def rd (p : Params) (reg : Reg) : HostOp := .read (regAddr p reg) 4

/-- The write of a command's word to CMD, then `poll` (R92). -/
def issueAndPoll (p : Params) (i : Instr) : List HostOp := [wr p .cmd (encode i), .poll]

/-- The expansion of a command's pseudo-instruction (R92). `x` and `y` are its operands, in the
order of its line; an operand it does not have is not read. -/
def pseudo (p : Params) (x y : Word) (i : Instr) : List HostOp :=
  match i with
  | .init => [wr p .arg0 x, wr p .arg1 y] ++ issueAndPoll p i
  | .setPeriod => [wr p .arg0 x] ++ issueAndPoll p i
  | .start => issueAndPoll p i
  | .stop => issueAndPoll p i
  | .resume => issueAndPoll p i
  | .attach => [wr p .arg0 x] ++ issueAndPoll p i
  | .detach => issueAndPoll p i
  | .read => issueAndPoll p i ++ [rd p .data]
  | .pwmEnable _ => [wr p .arg0 x, wr p .arg1 y] ++ issueAndPoll p i
  | .pwmDisable _ => issueAndPoll p i
  | .pwmSetDuty _ => [wr p .arg0 x] ++ issueAndPoll p i

end Sys2Proof.Machine
end

