-- ==== Sys2Proof/Machine/Step.lean ====
section
/-! DEFINITION. The step of the machine, and the placing of one command for the next step. -/

namespace Sys2Proof.Machine

/-- One step: refused where the instance is not well-formed (R11, I13), else the next agent's. -/
def step (s : State) : Host.Outcome State Fault Refusal :=
  if paramsOk s.par then agentStep s else .refused .illFormedInstance

/-- The state in which the next step is the host's write of the word `w` to CMD. The block fetches no
instruction (R60, R74): a command comes from the host (R67 a), so the write goes to the head of the
host's program and the host to the head of the schedule. The write needs BUSY = 0, so a suspended
command is put aside (log entry 11). -/
def State.withFetchWord (s : State) (nbits w : Nat) : State :=
  { s with
    busyOp := .none
    prog := wr s.par .cmd (BitVec.ofNat 32 (w % 2 ^ nbits)) :: s.prog
    sched := .host :: s.sched }

end Sys2Proof.Machine
end

