-- ==== Sys2Proof/Safety.lean ====
section
/-! DEFINITION. What counts as a sound state and a safe run: the invariant of the state rules, the
tables of R122, runs of ticks, and the fair executions of R262. -/

namespace Sys2Proof.Machine

/-- The facts that the state rules give of every state a run reaches. -/
structure Inv (s : State) : Prop where
  /-- R11: the instance is well-formed. -/
  params : paramsOk s.par = true
  /-- R32: Initializing "is never observed at a step boundary". -/
  notInitializing : s.tstate ≠ .initializing
  /-- R33: ClockSelect codes above n are never held. -/
  csSel_le : s.csSel ≤ nCodes s.par
  csHw_le : s.csHw ≤ nCodes s.par
  /-- R6, R36, R37, R44, R48: counter, top and compare values fit R bits. -/
  top_le : s.top ≤ maxTop s.par
  cnt_le : s.cnt ≤ maxTop s.par
  v1_le : s.v1 ≤ maxTop s.par
  cmp_le : ∀ v ∈ s.cmp, v ≤ maxTop s.par
  /-- R43, R44: one enable bit and one compare value per channel. -/
  oce_length : s.oce.length = s.par.nch
  cmp_length : s.cmp.length = s.par.nch
  /-- R37: DIR stays Up in a CTC instance. -/
  ctc_up : s.par.mode = .ctc → s.dir = .up
  /-- R42: FRESH is set in SYM instances only. -/
  ctc_notFresh : s.par.mode = .ctc → s.fresh = false
  /-- R212: "`DIR = Down ⇒ CNT ≥ 1`". -/
  down_pos : s.dir = .down → 1 ≤ s.cnt
  /-- R35: the hardware clock outside a wait. -/
  idle_clock : s.busyOp = .none → s.csHw = if s.tstate = .running then s.csSel else noClk
  /-- R90: only a SYM instance waits, and "only ever … with `CS_HW ≠ NOCLK`". -/
  wait_sym : s.busyOp ≠ .none → s.par.mode = .sym
  wait_clock : s.busyOp ≠ .none → s.csHw = s.csSel ∧ s.csSel ≠ noClk
  /-- R130, R133: during the start guard. -/
  guard_state : s.busyOp = .startGuard →
    (s.tstate = .ready ∨ s.tstate = .stopped) ∧ s.cb ≠ 0 ∧ s.ie = false ∧ s.fresh = true
  /-- R160, R163: during a READ probe. -/
  probe_state : s.busyOp = .readProbe → s.tstate = .running
  /-- R47: "CAUSE is 0 whenever FAIL is 0", and a failure has a cause (R200). -/
  fail_cause : s.fail = false ↔ s.cause = .none

/-- The legal states of a command (R122; R17). -/
def legalIn (i : Instr) (t : TimerState) : Bool :=
  match i with
  | .init => decide (t = .uninitialized)
  | .setPeriod => true
  | .start => decide (t = .ready ∨ t = .stopped)
  | .stop => true
  | .resume => decide (t = .stopped)
  | .attach => true
  | .detach => true
  | .read => decide (t = .running ∨ t = .stopped)
  | .pwmEnable _ => decide (t = .ready ∨ t = .running ∨ t = .stopped)
  | .pwmDisable _ => true
  | .pwmSetDuty _ => decide (t = .ready ∨ t = .running ∨ t = .stopped)

/-- The state after a command, by the table of R122; a dash of the table leaves it unchanged. -/
def stateAfter (i : Instr) (t : TimerState) : TimerState :=
  match i with
  | .init => if t = .uninitialized then .ready else t
  | .setPeriod => t
  | .start => if t = .ready ∨ t = .stopped then .running else t
  | .stop => .stopped
  | .resume => if t = .stopped then .running else t
  | .attach => t
  | .detach => t
  | .read => t
  | .pwmEnable _ => t
  | .pwmDisable _ => t
  | .pwmSetDuty _ => t

/-- The results that the table of R122 lists for a command in its legal states: Ok (no cause) or a
failure cause. Elsewhere the result is StateViolation. -/
def tableResults (i : Instr) : List Cause :=
  match i with
  | .init => [.none, .rangeViolation]
  | .setPeriod => [.none, .rangeViolation]
  | .start => [.none]
  | .stop => [.none]
  | .resume => [.none]
  | .attach => [.none, .invalidArgument]
  | .detach => [.none]
  | .read => [.none]
  | .pwmEnable _ => [.none, .invalidArgument, .rangeViolation]
  | .pwmDisable _ => [.none, .invalidArgument]
  | .pwmSetDuty _ => [.none, .invalidArgument, .rangeViolation]

/-- `k` ticks, one after the other, with no other step between them. -/
def ticks : Nat → State → State
  | 0, s => s
  | k + 1, s => ticks k (tick s)

/-- The handles of the callbacks that the block has emitted, oldest first (R221). -/
def callbacks : List Output → List Word
  | [] => []
  | .readData _ _ :: os => callbacks os
  | .callback h :: os => h :: callbacks os

/-- The host's program has ended: "its last access has been performed and `STATUS.BUSY` reads 0"
(R263). -/
def programEnded (s : State) : Prop := s.prog = [] ∧ busy s = false

/-- An endless run of the machine: every state steps to the next one. -/
def Execution (σ : Nat → State) : Prop := ∀ k, step (σ k) = .next (σ (k + 1))

/-- Weak fairness to one agent's step (R262): from no point on is it enabled for ever and never
taken. -/
def WeaklyFair (t : Turn) (σ : Nat → State) : Prop :=
  ∀ k, (∀ j, k ≤ j → turnEnabled (σ j) t = true) → ∃ j, k ≤ j ∧ nextTurn (σ j) = some t

/-- The executions that R262 admits: weakly fair to the tick, to the bridge's steps and to
CallbackReturn. -/
def FairExecution (σ : Nat → State) : Prop :=
  Execution σ ∧ WeaklyFair .counter σ ∧ WeaklyFair .latch σ ∧ WeaklyFair .invoke σ ∧
    WeaklyFair .callbackReturn σ

end Sys2Proof.Machine
end

