-- ==== Sys2Proof/Certificates/Slice0/Obligations.lean ====
section
/-! DEFINITION. The statements about the model, for the provers. Each is about every state, and so
about every well-formed instance; each docstring names the rule of spec/ it formalises. A command's
next state is written as the state before with the fields that the rule writes, so that every other
field is stated to be unchanged. -/

open Sys2Proof Sys2Proof.Machine

/-! ### Encoding -/

/-- R80, R85: decoding the word of any well-formed command gives the command back, in either family,
at every channel number of the field. -/
def Obligations.DecodeEncodeRoundTrip : Prop :=
  ∀ (m : Mode) (i : Instr), i.wf m = true → decodeWord m (encode i) = .command i

/-- R81, R85: a word that decodes to a command is that command's word, and the command is
well-formed: no two words name one command. -/
def Obligations.EncodeDecodeRoundTrip : Prop :=
  ∀ (m : Mode) (w : Word) (i : Instr),
    decodeWord m w = .command i → i.wf m = true ∧ encode i = w

/-- 95_test_vectors.md V133 to V136 and words of other rows: words written out from R85 decode to the
commands they stand for. -/
def Obligations.SpecWordsDecode : Prop :=
  decodeWord .ctc 0x00000001#32 = .command .init ∧
  decodeWord .ctc 0x00000002#32 = .command .setPeriod ∧
  decodeWord .sym 0x00000003#32 = .command .start ∧
  decodeWord .sym 0x00000008#32 = .command .read ∧
  decodeWord .sym 0x0000003B#32 = .command (.pwmSetDuty 3) ∧
  decodeWord .sym 0x000000F9#32 = .command (.pwmEnable 15) ∧
  decodeWord .sym 0x0000001A#32 = .command (.pwmDisable 1)

/-- R86: a word is illegal exactly in the cases (a) to (d); writing it to CMD completes at once with
InvalidArgument and changes no other state; a PWM word with CH ≥ NCH is legal at decode and fails
with InvalidArgument in its own rule (from a state legal for it). -/
def Obligations.IllegalWordsFailAlone : Prop :=
  (∀ (m : Mode) (w : Word),
    (∃ why, decodeWord m w = .illegal why) ↔
      ((opField w).toNat = 0x0 ∨ 0xC ≤ (opField w).toNat) ∨
      rsvField w ≠ 0 ∨
      ((1 ≤ (opField w).toNat ∧ (opField w).toNat ≤ 8) ∧ chField w ≠ 0) ∨
      (m = .ctc ∧ 9 ≤ (opField w).toNat ∧ (opField w).toNat ≤ 0xB)) ∧
  (∀ (s : State) (w : Word) (why : DecodeError) (rest : List HostOp) (ts : List Turn),
    paramsOk s.par = true → s.busyOp = .none →
    s.sched = .host :: ts → s.prog = .write s.par.base 4 w :: rest →
    decodeWord s.par.mode w = .illegal why →
    step s = .next { s with
      sched := ts, prog := rest, fail := true, cause := .invalidArgument }) ∧
  (∀ (s : State) (w : Word) (ch : Nat), s.par.mode = .sym → s.par.nch ≤ ch →
    (s.tstate = .ready ∨ s.tstate = .running ∨ s.tstate = .stopped) →
    (decodeWord s.par.mode w = .command (.pwmEnable ch) →
      exec (.pwmEnable ch) s = .next { s with fail := true, cause := .invalidArgument }) ∧
    (decodeWord s.par.mode w = .command (.pwmDisable ch) →
      exec (.pwmDisable ch) s = .next { s with fail := true, cause := .invalidArgument }) ∧
    (decodeWord s.par.mode w = .command (.pwmSetDuty ch) →
      exec (.pwmSetDuty ch) s = .next { s with fail := true, cause := .invalidArgument }))

/-- A step runs the decoded command (R67 a): where the host's next access is the write of a word to
CMD and the block is not busy, the step is the command's meaning, on the state whose schedule and
program have moved on by one. The second clause says it of the word that `withFetchWord` places: that
this helper puts the write at the head of the host's program and clears BUSYOP, so that the command runs
also from a busy state, is the model's choice (log entry 11), no rule of the spec. -/
def Obligations.StepRunsDecodedCommand : Prop :=
  (∀ (s : State) (w : Word) (i : Instr) (rest : List HostOp) (ts : List Turn),
    paramsOk s.par = true → s.busyOp = .none →
    s.sched = .host :: ts → s.prog = .write s.par.base 4 w :: rest →
    decodeWord s.par.mode w = .command i →
    step s = exec i { s with sched := ts, prog := rest }) ∧
  (∀ (s : State) (w : Nat) (i : Instr), paramsOk s.par = true →
    decodeWord s.par.mode (BitVec.ofNat 32 w) = .command i →
    step (s.withFetchWord 32 w) = exec i { s with busyOp := .none })

/-! ### Reset -/

/-- R51: every element at its reset value, in every instance. -/
def Obligations.ResetValues : Prop :=
  ∀ p : Params,
    let s := State.resetOf p
    s.par = p ∧
    s.tstate = .uninitialized ∧ s.csSel = noClk ∧ s.cb = 0 ∧ s.csHw = noClk ∧ s.top = 0 ∧
    s.cnt = 0 ∧ s.dir = .up ∧ s.ie = false ∧ s.pend = false ∧ s.inflight = 0 ∧
    s.active = false ∧ s.fresh = false ∧
    s.oce.length = p.nch ∧ s.cmp.length = p.nch ∧
    (∀ ch, ch < p.nch → oceAt s ch = false ∧ cmpAt s ch = 0) ∧
    s.arg0 = 0 ∧ s.arg1 = 0 ∧ s.data = 0 ∧
    busy s = false ∧ s.fail = false ∧ s.cause = .none ∧ statusWord s = 0 ∧
    s.busyOp = .none ∧ s.v1 = 0

/-- The invariant holds at reset of every well-formed instance, and at `State.reset` (R11, R51; the
instance of `State.reset` is the model's choice, log entry 2). -/
def Obligations.ResetMeetsInvariant : Prop :=
  (∀ p : Params, paramsOk p = true → Inv (State.resetOf p)) ∧ Inv State.reset

/-- R241: after reset no step of the block is enabled, and the machine waits for the host. That it
stands still there is the model's reading of an empty schedule (log entry 4), and the spec marks R241
as derived. -/
def Obligations.ResetIsQuiet : Prop :=
  ∀ p : Params, paramsOk p = true →
    turnEnabled (State.resetOf p) .counter = false ∧
    turnEnabled (State.resetOf p) .latch = false ∧
    turnEnabled (State.resetOf p) .invoke = false ∧
    turnEnabled (State.resetOf p) .callbackReturn = false ∧
    step (State.resetOf p) = .next (State.resetOf p)

/-! ### The invariant -/

/-- Every step keeps the invariant of the state rules (R6, R11, R32, R33, R35 to R37, R42 to R44, R47,
R48, R90, R212), from every state that meets it, not only from reset; and no step, from any state,
changes the instance's parameters (R50). -/
def Obligations.StepKeepsInvariant : Prop :=
  (∀ s t : State, Inv s → step s = .next t → Inv t) ∧
  (∀ s t : State, step s = .next t → t.par = s.par)

/-- R13: a scheduled agent's step is taken exactly where its enabling condition holds (R61 to R63,
R68, R210, R220, R221, R222); where the schedule is empty a step always exists, whichever agent the
free value picks. Two clauses are the model's: that CallbackReturn exists only while not BUSY is its
reading of R68 with R222 (log entry 7), and what an empty schedule does is its choice (log entry 4). -/
def Obligations.StepExistsWhenEnabled : Prop :=
  (∀ (s : State) (a : Turn) (ts : List Turn), paramsOk s.par = true → s.sched = a :: ts →
    ((∃ t, step s = .next t) ↔ turnEnabled s a = true)) ∧
  (∀ s : State, paramsOk s.par = true → s.sched = [] → ∃ t, step s = .next t)

/-! ### The prescaler selector -/

/-- R101: the cycle count is the exact quotient `F_HZ × P / (D × 1_000_000)` rounded to the nearest
integer, ties to the larger. -/
def Obligations.CyclesRoundHalfUp : Prop :=
  ∀ (p : Params) (period : Nat),
    let d := modeDivisor p.mode * 1000000
    2 * (d * cycles p period) ≤ 2 * (p.fHz * period) + d ∧
    2 * (p.fHz * period) + d < 2 * (d * (cycles p period + 1))

/-- R105: the code is 1 to n, the top value fits R bits, the request is in range exactly below
`2^R × TABLE[n-1]` cycles, and an in-range code is the least whose quotient fits. The spec marks
R105 as derived from R102 and R104. -/
def Obligations.SelectRangeAndLeastness : Prop :=
  ∀ (p : Params) (period : Nat), paramsOk p = true →
    let sel := select p period
    let c := cycles p period
    (1 ≤ sel.cs ∧ sel.cs ≤ nCodes p) ∧
    sel.top < 2 ^ p.r ∧
    (sel.inRange = true ↔ c < 2 ^ p.r * ratio p (nCodes p)) ∧
    (sel.inRange = true →
      sel.top = c / ratio p sel.cs ∧ (sel.cs = 1 ∨ 2 ^ p.r ≤ c / ratio p (sel.cs - 1)))

/-- R104: where no ratio gives a quotient below `2^R` the result is the clamp, and SET_PERIOD writes
it like any other result and reports RangeViolation. -/
def Obligations.SelectClampsOutOfRange : Prop :=
  ∀ (s : State), paramsOk s.par = true →
    (∀ c, 1 ≤ c → c ≤ nCodes s.par → 2 ^ s.par.r ≤ cycles s.par s.arg0.toNat / ratio s.par c) →
    select s.par s.arg0.toNat =
      { cs := nCodes s.par, top := maxTop s.par, inRange := false } ∧
    ∃ t, exec .setPeriod s = .next t ∧ t.csSel = nCodes s.par ∧ t.top = maxTop s.par ∧
      t.fail = true ∧ t.cause = .rangeViolation

/-- R103: dividing step by step by each ratio's incremental factor gives `cycles div TABLE[i]` at
every step, and so the same choice and the same top value as dividing by the ratio, for every cycle
count. The spec marks R103 as derived from R102 and R8. -/
def Obligations.StepwiseDivisionAgrees : Prop :=
  ∀ (p : Params) (c : Nat), paramsOk p = true →
    c / ratio p 1 = c ∧
    (∀ i, 1 ≤ i → i < nCodes p →
      c / ratio p i / (ratio p (i + 1) / ratio p i) = c / ratio p (i + 1)) ∧
    findIncremental (2 ^ p.r) c 1 0 p.table = findRatio (2 ^ p.r) c 0 p.table

/-- R106: a period that rounds to no cycles, the period zero among them, gives `(1, 0, true)`. The spec
marks R106 as derived from R101 and R102. -/
def Obligations.PeriodZeroSelectsMinimum : Prop :=
  ∀ (p : Params) (period : Nat), paramsOk p = true →
    period = 0 ∨ p.fHz * period < modeDivisor p.mode * 500000 →
    cycles p period = 0 ∧ select p period = { cs := 1, top := 0, inRange := true }

/-- R107: for a code c the quotient fits exactly up to `2^R × TABLE[c-1] - 1` cycles, the choice moves
from c to c + 1 at `2^R × TABLE[c-1]`, and the greatest in-range count is
`2^R × TABLE[n-1] - 1`. The spec marks R107 as derived from R102. -/
def Obligations.CodeBoundaries : Prop :=
  ∀ (p : Params) (c : Nat), paramsOk p = true → 1 ≤ c → c ≤ nCodes p →
    (∀ n, n / ratio p c < 2 ^ p.r ↔ n ≤ 2 ^ p.r * ratio p c - 1) ∧
    (selectCycles p (2 ^ p.r * ratio p c - 1)).cs = c ∧
    (selectCycles p (2 ^ p.r * ratio p c - 1)).inRange = true ∧
    (c < nCodes p → (selectCycles p (2 ^ p.r * ratio p c)).cs = c + 1) ∧
    (c = nCodes p → (selectCycles p (2 ^ p.r * ratio p c)).inRange = false)

/-! ### Lifecycle commands -/

/-- R125, INIT: from Uninitialized the selection is written, a nonzero handle is attached, and the
state is Ready even where the period is clamped; from every other state StateViolation and nothing
else. -/
def Obligations.InitCommand : Prop :=
  (∀ m : Mode, decodeWord m 0x00000001#32 = .command .init) ∧
  ∀ s : State,
    (s.tstate = .uninitialized →
      exec .init s = .next { s with
        top := (select s.par s.arg0.toNat).top
        csSel := (select s.par s.arg0.toNat).cs
        cb := if s.arg1 ≠ 0 then s.arg1 else s.cb
        tstate := .ready
        fail := !(select s.par s.arg0.toNat).inRange
        cause := if (select s.par s.arg0.toNat).inRange then .none else .rangeViolation }) ∧
    (s.tstate ≠ .uninitialized →
      exec .init s = .next { s with fail := true, cause := .stateViolation })

/-- R127, SET_PERIOD: legal from every state; TOP and CS_SEL are written together, CS_HW too while
Running; the clamped settings stay written where the period is out of range. -/
def Obligations.SetPeriodCommand : Prop :=
  (∀ m : Mode, decodeWord m 0x00000002#32 = .command .setPeriod) ∧
  ∀ s : State,
    exec .setPeriod s = .next { s with
      top := (select s.par s.arg0.toNat).top
      csSel := (select s.par s.arg0.toNat).cs
      csHw := if s.tstate = .running then (select s.par s.arg0.toNat).cs else s.csHw
      fail := !(select s.par s.arg0.toNat).inRange
      cause := if (select s.par s.arg0.toNat).inRange then .none else .rangeViolation }

/-- R130, START: its issue step where the guard applies, its one step where it does not, its failure
outside Ready and Stopped, and its completion step after the tick's own effects. -/
def Obligations.StartCommand : Prop :=
  (∀ m : Mode, decodeWord m 0x00000003#32 = .command .start) ∧
  (∀ s : State, (s.tstate = .ready ∨ s.tstate = .stopped) →
    (s.par.mode = .sym ∧ s.cb ≠ 0 ∧ s.csSel ≠ 0 →
      exec .start s = .next { s with
        ie := false, cnt := 0, dir := .up, csHw := s.csSel, fresh := true
        busyOp := .startGuard }) ∧
    (¬(s.par.mode = .sym ∧ s.cb ≠ 0 ∧ s.csSel ≠ 0) →
      exec .start s = .next { s with
        cnt := 0, dir := .up, csHw := s.csSel
        fresh := if s.par.mode = .sym then true else s.fresh
        ie := decide (s.cb ≠ 0), tstate := .running, fail := false, cause := .none })) ∧
  (∀ s : State, ¬(s.tstate = .ready ∨ s.tstate = .stopped) →
    exec .start s = .next { s with fail := true, cause := .stateViolation }) ∧
  (∀ s : State, s.busyOp = .startGuard →
    tick s = { tickCounter s with
      ie := true, tstate := .running, busyOp := .none, fail := false, cause := .none })

/-- R137, STOP: from every state the clock is off and the state Stopped, all else kept; a second STOP
changes nothing. -/
def Obligations.StopCommand : Prop :=
  (∀ m : Mode, decodeWord m 0x00000004#32 = .command .stop) ∧
  ∀ s : State,
    exec .stop s = .next { s with
      csHw := 0, tstate := .stopped, fail := false, cause := .none } ∧
    ∀ t, exec .stop s = .next t → exec .stop t = .next t

/-- R139, RESUME: from Stopped the selected clock is applied again, counter and IE kept; from every
other state StateViolation and nothing else. -/
def Obligations.ResumeCommand : Prop :=
  (∀ m : Mode, decodeWord m 0x00000005#32 = .command .resume) ∧
  ∀ s : State,
    (s.tstate = .stopped →
      exec .resume s = .next { s with
        csHw := s.csSel, tstate := .running, fail := false, cause := .none }) ∧
    (s.tstate ≠ .stopped →
      exec .resume s = .next { s with fail := true, cause := .stateViolation })

/-- R141, ATTACH: a nonzero handle is attached, IE set at once only while Running; the handle 0 is
rejected and changes nothing. -/
def Obligations.AttachCommand : Prop :=
  (∀ m : Mode, decodeWord m 0x00000006#32 = .command .attach) ∧
  ∀ s : State,
    (s.arg0 ≠ 0 →
      exec .attach s = .next { s with
        cb := s.arg0, ie := if s.tstate = .running then true else s.ie
        fail := false, cause := .none }) ∧
    (s.arg0 = 0 → exec .attach s = .next { s with fail := true, cause := .invalidArgument })

/-- R143, DETACH: CB cleared, IE cleared at once only while Running, INFLIGHT and PEND kept. -/
def Obligations.DetachCommand : Prop :=
  (∀ m : Mode, decodeWord m 0x00000007#32 = .command .detach) ∧
  ∀ s : State,
    exec .detach s = .next { s with
      cb := 0, ie := if s.tstate = .running then false else s.ie
      fail := false, cause := .none }

/-- R160, READ: one step in a CTC instance or with the clock stopped, the issue of the probe in a
running SYM instance, StateViolation with DATA unchanged outside Running and Stopped, and the
completion of the probe after the tick's own effects. The conversion is R166's, with k the log2 of
`TABLE[CS_SEL-1]`, and 0 for NOCLK. -/
def Obligations.ReadCommand : Prop :=
  (∀ m : Mode, decodeWord m 0x00000008#32 = .command .read) ∧
  (∀ (s : State) (k : Nat), (s.tstate = .running ∨ s.tstate = .stopped) →
    (s.par.mode = .ctc ∨ s.csHw = 0) →
    (if s.csSel = 0 then k = 0 else s.par.table[s.csSel - 1]? = some (2 ^ k)) →
      exec .read s = .next { s with
        data := BitVec.ofNat 32 ((s.cnt * 1000) / (s.par.fHz / 1000) * 2 ^ k)
        fail := false, cause := .none }) ∧
  (∀ s : State, (s.tstate = .running ∨ s.tstate = .stopped) →
    s.par.mode = .sym ∧ s.csHw ≠ 0 →
      exec .read s = .next { s with v1 := s.cnt, busyOp := .readProbe }) ∧
  (∀ s : State, ¬(s.tstate = .running ∨ s.tstate = .stopped) →
    exec .read s = .next { s with fail := true, cause := .stateViolation }) ∧
  (∀ (s : State) (k : Nat), s.busyOp = .readProbe →
    (if s.csSel = 0 then k = 0 else s.par.table[s.csSel - 1]? = some (2 ^ k)) →
    let u := tickCounter s
    let val := if u.cnt < s.v1 then 2 * s.top - s.v1 else s.v1
    tick s = { u with
      data := BitVec.ofNat 32 ((val * 1000) / (s.par.fHz / 1000) * 2 ^ k)
      busyOp := .none, fail := false, cause := .none })

/-! ### PWM commands -/

/-- R182, PWM_ENABLE: the period step where ARG1 is not 0, the channel's enable bit, the compare value
against the TOP just written where the duty is in range; the failures in the order of R201, of
which only the last keeps writes. -/
def Obligations.PwmEnableCommand : Prop :=
  (∀ ch : Nat, ch < 16 →
    decodeWord .sym (BitVec.ofNat 32 (0x9 + 16 * ch)) = .command (.pwmEnable ch)) ∧
  ∀ (s : State) (ch : Nat), s.par.mode = .sym →
    let legal := s.tstate = .ready ∨ s.tstate = .running ∨ s.tstate = .stopped
    let sel := select s.par s.arg1.toNat
    let newTop := if s.arg1 = 0 then s.top else sel.top
    let inRange := decide (s.arg0.toNat ≤ 2 ^ s.par.r)
    let ok := (decide (s.arg1 = 0) || sel.inRange) && inRange
    (legal → ch < s.par.nch →
      exec (.pwmEnable ch) s = .next { s with
        top := newTop
        csSel := if s.arg1 = 0 then s.csSel else sel.cs
        csHw := if s.arg1 ≠ 0 ∧ s.tstate = .running then sel.cs else s.csHw
        oce := s.oce.set ch true
        cmp := if inRange then s.cmp.set ch (newTop * s.arg0.toNat / 2 ^ s.par.r) else s.cmp
        fail := !ok
        cause := if ok then .none else .rangeViolation }) ∧
    (legal → s.par.nch ≤ ch →
      exec (.pwmEnable ch) s = .next { s with fail := true, cause := .invalidArgument }) ∧
    (¬legal →
      exec (.pwmEnable ch) s = .next { s with fail := true, cause := .stateViolation })

/-- R184, PWM_DISABLE: the channel's enable bit is cleared in every state, CMP and all else kept; an
unrecognised channel is InvalidArgument. -/
def Obligations.PwmDisableCommand : Prop :=
  (∀ ch : Nat, ch < 16 →
    decodeWord .sym (BitVec.ofNat 32 (0xA + 16 * ch)) = .command (.pwmDisable ch)) ∧
  ∀ (s : State) (ch : Nat), s.par.mode = .sym →
    (ch < s.par.nch →
      exec (.pwmDisable ch) s = .next { s with
        oce := s.oce.set ch false, fail := false, cause := .none }) ∧
    (s.par.nch ≤ ch →
      exec (.pwmDisable ch) s = .next { s with fail := true, cause := .invalidArgument })

/-- R181, PWM_SET_DUTY: the compare value of one channel; the failures in the order of R201, each of
which changes nothing. -/
def Obligations.PwmSetDutyCommand : Prop :=
  (∀ ch : Nat, ch < 16 →
    decodeWord .sym (BitVec.ofNat 32 (0xB + 16 * ch)) = .command (.pwmSetDuty ch)) ∧
  ∀ (s : State) (ch : Nat), s.par.mode = .sym →
    let legal := s.tstate = .ready ∨ s.tstate = .running ∨ s.tstate = .stopped
    (legal → ch < s.par.nch → s.arg0.toNat ≤ 2 ^ s.par.r →
      exec (.pwmSetDuty ch) s = .next { s with
        cmp := s.cmp.set ch (s.top * s.arg0.toNat / 2 ^ s.par.r)
        fail := false, cause := .none }) ∧
    (legal → ch < s.par.nch → 2 ^ s.par.r < s.arg0.toNat →
      exec (.pwmSetDuty ch) s = .next { s with fail := true, cause := .rangeViolation }) ∧
    (legal → s.par.nch ≤ ch →
      exec (.pwmSetDuty ch) s = .next { s with fail := true, cause := .invalidArgument }) ∧
    (¬legal →
      exec (.pwmSetDuty ch) s = .next { s with fail := true, cause := .stateViolation })

/-- R180: the duty mapping and its range; and the properties that the spec marks as derived from it: it
is 0 at 0, TOP at `2^R`, rises with the duty, and never exceeds TOP in range. -/
def Obligations.DutyMappingProperties : Prop :=
  ∀ (p : Params) (top d e : Nat),
    dutyToCmp p top d = top * d / 2 ^ p.r ∧
    dutyToCmp p top 0 = 0 ∧
    dutyToCmp p top (2 ^ p.r) = top ∧
    (d ≤ e → dutyToCmp p top d ≤ dutyToCmp p top e) ∧
    (dutyInRange p d = true ↔ d ≤ 2 ^ p.r) ∧
    (dutyInRange p d = true → dutyToCmp p top d ≤ top)

/-! ### Rules over all commands and all steps -/

/-- R120: every command answers one next state from every state, and a command from a state outside
its legal states writes FAIL and CAUSE and nothing else. (A PWM command in a CTC instance is an illegal
word: R86 d comes first, R201.) -/
def Obligations.IllegalStateMutatesNothing : Prop :=
  (∀ (s : State) (i : Instr), ∃! t, exec i s = .next t) ∧
  ∀ (s : State) (i : Instr), i.existsIn s.par.mode = true → legalIn i s.tstate = false →
    exec i s = .next { s with fail := true, cause := .stateViolation }

/-- R122: the state after each command, and its possible results, are the table's; a waiting command
reaches them at its completion. -/
def Obligations.TransitionTable : Prop :=
  ∀ (s t : State) (i : Instr), s.busyOp = .none → exec i s = .next t →
    (completeWait t).tstate = stateAfter i s.tstate ∧
    (t.busyOp = .none → t.tstate = stateAfter i s.tstate) ∧
    (t.busyOp ≠ .none → t.tstate = s.tstate) ∧
    (i.existsIn s.par.mode = true →
      (legalIn i s.tstate = true → (completeWait t).cause ∈ tableResults i) ∧
      (legalIn i s.tstate = false → (completeWait t).cause = .stateViolation) ∧
      (completeWait t).fail = decide ((completeWait t).cause ≠ .none))

/-- R202: no command stops the block: each answers a next state from every state. The second clause
is the model's reading of R86 (d) (log entry 15): a PWM command that reaches `exec` in a CTC instance
is answered as its illegal word is. -/
def Obligations.EveryCommandAnswers : Prop :=
  (∀ (s : State) (i : Instr), ∃ t, exec i s = .next t) ∧
  (∀ (s : State) (i : Instr), s.par.mode = .ctc → i.isPwm = true →
    exec i s = .next { s with fail := true, cause := .invalidArgument })

/-- R122, R257: no step enters Uninitialized from another state, so INIT fails from then on. The spec
marks R257 as derived. -/
def Obligations.UninitializedNeverReentered : Prop :=
  ∀ s t : State, step s = .next t → s.tstate ≠ .uninitialized →
    t.tstate ≠ .uninitialized ∧
    exec .init t = .next { t with fail := true, cause := .stateViolation }

/-- R34, R36, R121, R251: TOP and CS_SEL change only together, to the selection of one period, and
while Running CS_HW with them. -/
def Obligations.SelectionWrittenTogether : Prop :=
  ∀ s t : State, step s = .next t → t.top ≠ s.top ∨ t.csSel ≠ s.csSel →
    ∃ period, t.top = (select s.par period).top ∧ t.csSel = (select s.par period).cs ∧
      (t.tstate = .running → t.csHw = t.csSel)

/-- R145: while the timer stays Running, IE goes on agreeing with "a callback is attached"; and right
after a START completes they agree. The spec marks R145 as derived. -/
def Obligations.InterruptEnableAgreement : Prop :=
  (∀ s t : State, Inv s → step s = .next t → s.tstate = .running → t.tstate = .running →
    s.ie = decide (s.cb ≠ 0) → t.ie = decide (t.cb ≠ 0)) ∧
  (∀ s t : State, (s.tstate = .ready ∨ s.tstate = .stopped) → s.busyOp = .none →
    exec .start s = .next t →
    (t.busyOp = .none → t.ie = decide (t.cb ≠ 0)) ∧
    (t.busyOp ≠ .none → t.ie = false ∧ (tick t).ie = decide ((tick t).cb ≠ 0)))

/-! ### The counter -/

/-- R210: a Counter turn is one tick exactly where CS_HW is not NOCLK. -/
def Obligations.CounterTurnTicks : Prop :=
  ∀ (s : State) (ts : List Turn), paramsOk s.par = true → s.sched = .counter :: ts →
    (s.csHw ≠ 0 → step s = .next (tick { s with sched := ts })) ∧
    (s.csHw = 0 → ∀ t, step s ≠ .next t)

/-- R211: the CTC tick; one period is TOP + 1 ticks with one event, CNT taking each value 0 to TOP
once; above TOP the counter runs to MAXTOP and wraps to 0 with no event. -/
def Obligations.CtcCounterCounts : Prop :=
  ∀ s : State, s.par.mode = .ctc → s.busyOp = .none →
    (s.cnt = s.top → tick s = { s with cnt := 0, pend := true, fresh := false }) ∧
    (s.cnt ≠ s.top →
      tick s = { s with cnt := (s.cnt + 1) % 2 ^ s.par.r, fresh := false }) ∧
    (s.top ≤ maxTop s.par → s.cnt = 0 →
      (∀ k, k ≤ s.top → (ticks k s).cnt = k ∧ (ticks k s).pend = s.pend) ∧
      (ticks (s.top + 1) s).cnt = 0 ∧ (ticks (s.top + 1) s).pend = true) ∧
    (s.top < s.cnt → s.cnt ≤ maxTop s.par →
      (∀ k, s.cnt + k ≤ maxTop s.par →
        (ticks k s).cnt = s.cnt + k ∧ (ticks k s).pend = s.pend) ∧
      (ticks (maxTop s.par - s.cnt + 1) s).cnt = 0 ∧
      (ticks (maxTop s.par - s.cnt + 1) s).pend = s.pend)

/-- R212: the SYM tick. First CNT, DIR and the event of a tick from every state, whether a command waits
or a draw is asked or not; the premise on DIR = Down is the fact that R212 gives of every state
(`Inv.down_pos`). Then, where no command waits and without the spurious draw of R213, the whole state
after a tick, and the period: from (0, Up) it is 2 × TOP ticks, up to TOP, the turn, down, and one event
on arrival at 0. -/
def Obligations.SymCounterCounts : Prop :=
  (∀ s : State, s.par.mode = .sym → (s.dir = .down → 1 ≤ s.cnt) →
    (s.top = 0 →
      (tick s).cnt = 0 ∧ (tick s).dir = .up ∧ (count s).event = true) ∧
    (s.top ≠ 0 → s.dir = .up → s.cnt < s.top →
      (tick s).cnt = s.cnt + 1 ∧
      (tick s).dir = (if s.cnt + 1 = s.top then .down else .up) ∧ (count s).event = false) ∧
    (s.top ≠ 0 → (s.dir = .down ∨ s.top ≤ s.cnt) → s.cnt = 1 →
      (tick s).cnt = 0 ∧ (tick s).dir = .up ∧ (count s).event = true) ∧
    (s.top ≠ 0 → (s.dir = .down ∨ s.top ≤ s.cnt) → s.cnt ≠ 1 →
      (tick s).cnt = s.cnt - 1 ∧ (tick s).dir = .down ∧ (count s).event = false)) ∧
  ∀ s : State, s.par.mode = .sym → s.busyOp = .none → (s.fresh = false ∨ s.ie = false) →
    (s.top = 0 →
      tick s = { s with cnt := 0, dir := .up, pend := true, fresh := false }) ∧
    (s.top ≠ 0 → s.dir = .up → s.cnt < s.top →
      tick s = { s with
        cnt := s.cnt + 1, dir := if s.cnt + 1 = s.top then .down else .up, fresh := false }) ∧
    (s.top ≠ 0 → ¬(s.dir = .up ∧ s.cnt < s.top) → s.cnt = 1 →
      tick s = { s with cnt := 0, dir := .up, pend := true, fresh := false }) ∧
    (s.top ≠ 0 → ¬(s.dir = .up ∧ s.cnt < s.top) → 2 ≤ s.cnt →
      tick s = { s with cnt := s.cnt - 1, dir := .down, fresh := false }) ∧
    (s.top ≠ 0 → s.cnt = 0 → s.dir = .up →
      (∀ k, k < s.top →
        (ticks k s).cnt = k ∧ (ticks k s).dir = .up ∧ (ticks k s).pend = s.pend) ∧
      (∀ k, s.top ≤ k → k < 2 * s.top →
        (ticks k s).cnt = 2 * s.top - k ∧ (ticks k s).dir = .down ∧
          (ticks k s).pend = s.pend) ∧
      (ticks (2 * s.top) s).cnt = 0 ∧ (ticks (2 * s.top) s).dir = .up ∧
      (ticks (2 * s.top) s).pend = true)

/-- R213: after the count, PEND is set by an event whatever IE is, or by a spurious draw that is asked
only where MODE = SYM, FRESH = 1 and IE = 1; FRESH is cleared. The draw is a free value (log
entry 5). -/
def Obligations.PendingAfterTick : Prop :=
  ∀ s : State,
    (tick s).fresh = false ∧
    ((count s).event = true → (tick s).pend = true) ∧
    (¬(s.par.mode = .sym ∧ s.fresh = true ∧ s.ie = true) →
      (tick s).pend = (s.pend || (count s).event)) ∧
    (s.par.mode = .sym → s.fresh = true → s.ie = true →
      (tick s).pend = (s.pend || (count s).event || Config.drawBool s.freeIdx))

/-- R231, R250: START itself never exposes the spurious event: in the first tick after it, where the
clock it applied runs, PEND is set by a counter event only. The spec marks both as derived. -/
def Obligations.StartSuppressesSpuriousEvent : Prop :=
  ∀ s t : State, (s.tstate = .ready ∨ s.tstate = .stopped) → exec .start s = .next t →
    t.csHw ≠ 0 → (tick t).pend = (t.pend || (count t).event)

/-! ### The interrupt bridge -/

/-- R220: the latch step, exactly under its condition; an event with no callback attached is dropped. -/
def Obligations.LatchStep : Prop :=
  ∀ (s : State) (ts : List Turn), paramsOk s.par = true → s.sched = .latch :: ts →
    (s.pend = true ∧ s.ie = true ∧ s.busyOp = .none ∧ s.inflight = 0 →
      step s = .next { s with
        sched := ts, pend := false, inflight := if s.cb ≠ 0 then s.cb else 0 }) ∧
    (¬(s.pend = true ∧ s.ie = true ∧ s.busyOp = .none ∧ s.inflight = 0) → ∀ t, step s ≠ .next t)

/-- R221: the invoke step, exactly under its condition, emits `Callback(h)` with the handle captured at
latching. -/
def Obligations.InvokeStep : Prop :=
  ∀ (s : State) (ts : List Turn), paramsOk s.par = true → s.sched = .invoke :: ts →
    (s.inflight ≠ 0 ∧ s.active = false ∧ s.busyOp = .none →
      step s = .next { s with
        sched := ts, trace := s.trace ++ [.callback s.inflight], active := true
        inflight := 0 }) ∧
    (¬(s.inflight ≠ 0 ∧ s.active = false ∧ s.busyOp = .none) → ∀ t, step s ≠ .next t)

/-- R222: CallbackReturn ends the active callback and changes nothing else. That it is not admitted
while BUSY = 1 is read from R68 (log entry 7). -/
def Obligations.CallbackReturnStep : Prop :=
  ∀ (s : State) (ts : List Turn), paramsOk s.par = true → s.sched = .callbackReturn :: ts →
    (s.active = true ∧ s.busyOp = .none →
      step s = .next { s with sched := ts, active := false }) ∧
    (¬(s.active = true ∧ s.busyOp = .none) → ∀ t, step s ≠ .next t)

/-- R71: while a waiting command is suspended no step latches or invokes: INFLIGHT keeps, no callback
is emitted, and a pending event stays pending. That ACTIVE keeps too is the model's reading of R68: no
CallbackReturn while BUSY (log entry 7). -/
def Obligations.BridgeMaskedWhileBusy : Prop :=
  ∀ s t : State, step s = .next t → s.busyOp ≠ .none →
    t.inflight = s.inflight ∧ t.active = s.active ∧
    callbacks t.trace = callbacks s.trace ∧ (s.pend = true → t.pend = true)

/-- R223: while a callback is active no step emits another one: callbacks never nest. -/
def Obligations.CallbacksNeverNest : Prop :=
  ∀ s t : State, step s = .next t → s.active = true →
    callbacks t.trace = callbacks s.trace

/-- R41, R221, R255: an event in flight is kept by every step, whatever command it performs, until the
invoke step delivers it with the handle captured at latching. The spec marks R255 as derived. -/
def Obligations.InflightEventDelivered : Prop :=
  ∀ s t : State, step s = .next t → s.inflight ≠ 0 →
    (t.inflight = s.inflight ∧ callbacks t.trace = callbacks s.trace) ∨
    (t.inflight = 0 ∧ t.active = true ∧ t.trace = s.trace ++ [.callback s.inflight])

/-- R40, R220: a pending event is cleared by a latch step and by nothing else. -/
def Obligations.PendingClearedByLatchOnly : Prop :=
  ∀ s t : State, step s = .next t → s.pend = true → t.pend = false →
    nextTurn s = some .latch ∧ s.ie = true ∧ s.inflight = 0 ∧ t.inflight = s.cb

/-! ### The register window -/

/-- R61, R62, R63, R68: an access that is not a word, not in the window, misaligned or unmapped, and
a write while BUSY, is no step. The spec calls the host stuck; the names of the stops, and which comes
first where several apply, are the model's (log entry 6). -/
def Obligations.InadmissibleAccessesAreStuck : Prop :=
  ∀ (s : State) (op : HostOp) (rest : List HostOp) (ts : List Turn) (a n : Nat) (v : Word),
    paramsOk s.par = true → s.sched = .host :: ts → s.prog = op :: rest →
    (op = .read a n ∨ op = .write a n v) →
    (n ≠ 4 → step s = .fault .accessWidth) ∧
    (n = 4 → a < s.par.base ∨ s.par.base + 128 ≤ a → step s = .fault .outsideWindow) ∧
    (∀ off, n = 4 → a = s.par.base + off → off < 128 → off % 4 ≠ 0 →
      step s = .fault .misaligned) ∧
    (∀ off, n = 4 → a = s.par.base + off → off < 128 → off % 4 = 0 →
      0x2C ≤ off → (off < 0x40 ∨ 0x40 + 4 * s.par.nch ≤ off) → step s = .fault .unmapped) ∧
    (∀ reg, op = .write (regAddr s.par reg) 4 v → (∀ ch, reg = .cmp ch → ch < s.par.nch) →
      s.busyOp ≠ .none → step s = .fault .writeWhileBusy)

/-- R67: a write to CMD issues the command where BUSY = 0; writes to ARG0 and ARG1 set them; a write
to a read-only register changes nothing; a read gives the register's word and changes nothing. -/
def Obligations.WindowAccessEffects : Prop :=
  ∀ (s : State) (rest : List HostOp) (ts : List Turn) (v : Word),
    paramsOk s.par = true → s.sched = .host :: ts →
    let u : State := { s with sched := ts, prog := rest }
    (s.busyOp = .none →
      (∀ i, s.prog = .write (regAddr s.par .cmd) 4 v :: rest →
        decodeWord s.par.mode v = .command i → step s = exec i u) ∧
      (s.prog = .write (regAddr s.par .arg0) 4 v :: rest → step s = .next { u with arg0 := v }) ∧
      (s.prog = .write (regAddr s.par .arg1) 4 v :: rest → step s = .next { u with arg1 := v }) ∧
      (∀ reg, reg ≠ .cmd → reg ≠ .arg0 → reg ≠ .arg1 → (∀ ch, reg = .cmp ch → ch < s.par.nch) →
        s.prog = .write (regAddr s.par reg) 4 v :: rest → step s = .next u)) ∧
    (∀ reg, (∀ ch, reg = .cmp ch → ch < s.par.nch) →
      s.prog = .read (regAddr s.par reg) 4 :: rest →
      step s = .next { u with
        trace := s.trace ++ [.readData (regAddr s.par reg) (readReg s reg)] })

/-- R92: `poll` reads STATUS into the trace and stays the host's next access until BUSY reads 0. -/
def Obligations.PollRepeatsWhileBusy : Prop :=
  ∀ (s : State) (rest : List HostOp) (ts : List Turn),
    paramsOk s.par = true → s.sched = .host :: ts → s.prog = .poll :: rest →
    step s = .next { s with
      sched := ts
      prog := if s.busyOp = .none then rest else s.prog
      trace := s.trace ++ [.readData (regAddr s.par .status) (readReg s .status)] }

/-- R47, R32, R200: the fields of STATUS with their codes; every other bit reads 0. -/
def Obligations.StatusRegisterFields : Prop :=
  ∀ s : State,
    let w := readReg s .status
    w.getLsbD 0 = decide (s.busyOp ≠ .none) ∧
    w.getLsbD 1 = s.fail ∧
    (w.extractLsb' 2 2).toNat =
      (match s.cause with
        | .none => 0
        | .stateViolation => 1
        | .rangeViolation => 2
        | .invalidArgument => 3) ∧
    (w.extractLsb' 4 3).toNat =
      (match s.tstate with
        | .uninitialized => 0
        | .initializing => 1
        | .ready => 2
        | .running => 3
        | .stopped => 4) ∧
    w.extractLsb' 7 25 = 0

/-- R49, R64: the map's offsets, each at a word of the window, no two registers at one offset, and no
register at any other offset; a register's address is BASE plus its offset. -/
def Obligations.RegisterMapOffsets : Prop :=
  (regOffset .cmd = 0x00 ∧ regOffset .arg0 = 0x04 ∧ regOffset .arg1 = 0x08 ∧
    regOffset .status = 0x0C ∧ regOffset .data = 0x10 ∧ regOffset .ctrl = 0x14 ∧
    regOffset .top = 0x18 ∧ regOffset .cnt = 0x1C ∧ regOffset .cb = 0x20 ∧
    regOffset .inflight = 0x24 ∧ regOffset .oce = 0x28 ∧
    (∀ ch, regOffset (.cmp ch) = 0x40 + 4 * ch) ∧
    ∀ (p : Params) (reg : Reg), regAddr p reg = p.base + regOffset reg) ∧
  ∀ p : Params, paramsOk p = true →
    (∀ reg, (∀ ch, reg = .cmp ch → ch < p.nch) →
      regAt p (regOffset reg) = some reg ∧ regOffset reg % 4 = 0 ∧ regOffset reg < 128) ∧
    (∀ off reg, regAt p off = some reg →
      off = regOffset reg ∧ ∀ ch, reg = .cmp ch → ch < p.nch)

/-- R49, R50: the words of the registers but STATUS. CMD reads 0; ARG0, ARG1, DATA, CB and INFLIGHT read
as they are in every state; the fields of CTRL, the bits of OCE, and the words of TOP, CNT and CMP are
those of the map in every state of the invariant, with every other bit 0. -/
def Obligations.ControlAndChannelWords : Prop :=
  (∀ s : State, readReg s .cmd = 0 ∧ readReg s .arg0 = s.arg0 ∧ readReg s .arg1 = s.arg1 ∧
    readReg s .data = s.data ∧ readReg s .cb = s.cb ∧ readReg s .inflight = s.inflight) ∧
  ∀ s : State, Inv s →
    let w := readReg s .ctrl
    (w.extractLsb' 0 3).toNat = s.csSel ∧ (w.extractLsb' 3 3).toNat = s.csHw ∧
    w.getLsbD 6 = s.ie ∧ w.getLsbD 7 = s.pend ∧
    w.getLsbD 8 = decide (s.par.mode = .sym) ∧ w.getLsbD 9 = decide (s.par.r = 16) ∧
    (w.extractLsb' 10 4).toNat = s.par.nch ∧ (w.extractLsb' 14 3).toNat = nCodes s.par ∧
    w.extractLsb' 17 15 = 0 ∧
    (∀ k, k < 32 → (readReg s .oce).getLsbD k = (decide (k < s.par.nch) && oceAt s k)) ∧
    (readReg s .top).toNat = s.top ∧ (readReg s .cnt).toNat = s.cnt ∧
    (∀ ch, ch < s.par.nch → (readReg s (.cmp ch)).toNat = cmpAt s ch)

/-! ### READ as a measurement -/

/-- R46, R160, R166: DATA changes only by a READ that succeeds: by the host's write of the READ word to
CMD where no probe is taken, or by the tick that ends a READ probe. DATA then holds, with no bit lost,
the conversion of CNT at the write, or of the first snapshot V1, folded where the counter has fallen
below it. -/
def Obligations.DataHoldsElapsedExactly : Prop :=
  ∀ s t : State, Inv s → step s = .next t → t.data ≠ s.data →
    t.fail = false ∧ (s.tstate = .running ∨ s.tstate = .stopped) ∧
    ∃ val k,
      (if s.csSel = 0 then k = 0 else s.par.table[s.csSel - 1]? = some (2 ^ k)) ∧
      t.data.toNat = (val * 1000) / (s.par.fHz / 1000) * 2 ^ k ∧
      ((nextTurn s = some .host ∧ s.busyOp = .none ∧ (s.par.mode = .ctc ∨ s.csHw = 0) ∧
          (∃ rest, s.prog = .write s.par.base 4 0x00000008#32 :: rest) ∧ val = s.cnt) ∨
        (nextTurn s = some .counter ∧ s.busyOp = .readProbe ∧
          val = if (tick s).cnt < s.v1 then 2 * s.top - s.v1 else s.v1))

/-- R163, R165, R167: in a SYM instance, a READ issued k ticks after the counter left (0, Up), at any
k below the period 2 × TOP, completes at the next tick with the microseconds of exactly k ticks,
on the way up and on the way down. The spec marks these consequences of R163 and R167 as derived. -/
def Obligations.SymReadMeasuresTicks : Prop :=
  ∀ (s : State) (k m : Nat), Inv s → s.par.mode = .sym → s.tstate = .running → s.busyOp = .none →
    s.csHw ≠ 0 → s.cnt = 0 → s.dir = .up → 1 ≤ s.top → (s.fresh = false ∨ s.ie = false) →
    k < 2 * s.top → s.par.table[s.csSel - 1]? = some (2 ^ m) →
    ∃ u, exec .read (ticks k s) = .next u ∧ u.busyOp = .readProbe ∧
      (tick u).busyOp = .none ∧ (tick u).fail = false ∧
      (tick u).data.toNat = (k * 1000) / (s.par.fHz / 1000) * 2 ^ m

/-- R167: with a clock of whole kilohertz above 500 kHz, a CTC counter that runs from 0 with the
selection of an in-range period P reads as a value between 0 and P at every tick of the period, and
never falls from one tick to a later one. The spec marks R167 as derived. -/
def Obligations.CtcReadStaysWithinPeriod : Prop :=
  ∀ (s : State) (period j k : Nat), Inv s → s.par.mode = .ctc → s.tstate = .running →
    s.busyOp = .none → s.cnt = 0 →
    s.par.fHz % 1000 = 0 → 500000 < s.par.fHz →
    (select s.par period).inRange = true →
    s.top = (select s.par period).top → s.csSel = (select s.par period).cs →
    j ≤ k → k ≤ s.top →
    ∃ t u, exec .read (ticks j s) = .next t ∧ exec .read (ticks k s) = .next u ∧
      t.data.toNat ≤ u.data.toNat ∧ u.data.toNat ≤ period

/-- R166, R167: the conversion, with k the log2 of the code's ratio, and 0 for NOCLK; and in a SYM
instance with a clock of whole kilohertz above 1 MHz it never falls as the count rises, and every folded
value below 2 × TOP of an in-range period P converts to at most P. The spec marks R167 as derived. -/
def Obligations.SymConversionWithinPeriod : Prop :=
  (∀ (p : Params) (v c k : Nat),
    (if c = 0 then k = 0 else p.table[c - 1]? = some (2 ^ k)) →
    toUs p v c = (v * 1000) / (p.fHz / 1000) * 2 ^ k) ∧
  ∀ (p : Params) (period : Nat), paramsOk p = true → p.mode = .sym →
    p.fHz % 1000 = 0 → 1000000 < p.fHz → (select p period).inRange = true →
    (∀ v w c, v ≤ w → toUs p v c ≤ toUs p w c) ∧
    ∀ v, v < 2 * (select p period).top → toUs p v (select p period).cs ≤ period

/-! ### Waiting commands -/

/-- R90, R214, R260: a waiting command completes at the next tick, whatever the tick does, with Ok. -/
def Obligations.WaitEndsAtNextTick : Prop :=
  ∀ (s : State) (ts : List Turn), Inv s → s.busyOp ≠ .none → s.sched = .counter :: ts →
    ∃ t, step s = .next t ∧ t.busyOp = .none ∧ t.tstate = .running ∧ t.fail = false ∧
      t.cause = .none ∧ (s.busyOp = .startGuard → t.ie = true ∧ t.data = s.data) ∧
      (s.busyOp = .readProbe → t.ie = s.ie)

/-- R90, R254: while a command waits, no step but a tick ends the wait, and STATE, FAIL, CAUSE and DATA
keep. The spec marks R254 as derived. -/
def Obligations.WaitHeldBetweenTicks : Prop :=
  ∀ s t : State, step s = .next t → s.busyOp ≠ .none → nextTurn s ≠ some .counter →
    t.busyOp = s.busyOp ∧ t.tstate = s.tstate ∧ t.fail = s.fail ∧ t.cause = s.cause ∧
    t.data = s.data ∧ t.cnt = s.cnt ∧ t.csHw = s.csHw

/-- R262: in every fair execution every waiting command completes, whatever the schedule and the free
choices are. -/
def Obligations.FairRunsCompleteWaits : Prop :=
  ∀ σ : Nat → State, FairExecution σ → Inv (σ 0) →
    ∀ k, (σ k).busyOp ≠ .none → ∃ j, k < j ∧ (σ j).busyOp = .none

/-- R220, R221, R262: in a fair execution in which, from step k on, no command waits, IE is 1 and a
callback is attached, an event that is pending at step k is latched and delivered: the bridge emits
`Callback(h)` with the handle h that was attached when it latched. -/
def Obligations.FairRunsDeliverPendingEvents : Prop :=
  ∀ (σ : Nat → State) (k : Nat), FairExecution σ →
    (∀ j, k ≤ j → (σ j).busyOp = .none ∧ (σ j).ie = true ∧ (σ j).cb ≠ 0) →
    (σ k).pend = true →
    ∃ j l, k ≤ j ∧ j < l ∧ nextTurn (σ j) = some .latch ∧
      (σ (l + 1)).trace = (σ l).trace ++ [.callback (σ j).cb]
end

