-- ==== Sys2Proof/Laws/State.lean ====
section
/-! SUPPORT. What each named update of the state does to each field: one lemma per field per update,
true by definition, so that no later proof unfolds a record update. -/

namespace Sys2Proof.Machine

/-! ### `State.setResult` -/

@[simp] theorem State.setResult_par (s : State) (f : Bool) (c : Cause) :
    (s.setResult f c).par = s.par := rfl
@[simp] theorem State.setResult_tstate (s : State) (f : Bool) (c : Cause) :
    (s.setResult f c).tstate = s.tstate := rfl
@[simp] theorem State.setResult_csSel (s : State) (f : Bool) (c : Cause) :
    (s.setResult f c).csSel = s.csSel := rfl
@[simp] theorem State.setResult_csHw (s : State) (f : Bool) (c : Cause) :
    (s.setResult f c).csHw = s.csHw := rfl
@[simp] theorem State.setResult_top (s : State) (f : Bool) (c : Cause) :
    (s.setResult f c).top = s.top := rfl
@[simp] theorem State.setResult_cnt (s : State) (f : Bool) (c : Cause) :
    (s.setResult f c).cnt = s.cnt := rfl
@[simp] theorem State.setResult_dir (s : State) (f : Bool) (c : Cause) :
    (s.setResult f c).dir = s.dir := rfl
@[simp] theorem State.setResult_cb (s : State) (f : Bool) (c : Cause) :
    (s.setResult f c).cb = s.cb := rfl
@[simp] theorem State.setResult_ie (s : State) (f : Bool) (c : Cause) :
    (s.setResult f c).ie = s.ie := rfl
@[simp] theorem State.setResult_pend (s : State) (f : Bool) (c : Cause) :
    (s.setResult f c).pend = s.pend := rfl
@[simp] theorem State.setResult_inflight (s : State) (f : Bool) (c : Cause) :
    (s.setResult f c).inflight = s.inflight := rfl
@[simp] theorem State.setResult_active (s : State) (f : Bool) (c : Cause) :
    (s.setResult f c).active = s.active := rfl
@[simp] theorem State.setResult_fresh (s : State) (f : Bool) (c : Cause) :
    (s.setResult f c).fresh = s.fresh := rfl
@[simp] theorem State.setResult_oce (s : State) (f : Bool) (c : Cause) :
    (s.setResult f c).oce = s.oce := rfl
@[simp] theorem State.setResult_cmp (s : State) (f : Bool) (c : Cause) :
    (s.setResult f c).cmp = s.cmp := rfl
@[simp] theorem State.setResult_arg0 (s : State) (f : Bool) (c : Cause) :
    (s.setResult f c).arg0 = s.arg0 := rfl
@[simp] theorem State.setResult_arg1 (s : State) (f : Bool) (c : Cause) :
    (s.setResult f c).arg1 = s.arg1 := rfl
@[simp] theorem State.setResult_data (s : State) (f : Bool) (c : Cause) :
    (s.setResult f c).data = s.data := rfl
@[simp] theorem State.setResult_fail (s : State) (f : Bool) (c : Cause) :
    (s.setResult f c).fail = f := rfl
@[simp] theorem State.setResult_cause (s : State) (f : Bool) (c : Cause) :
    (s.setResult f c).cause = c := rfl
@[simp] theorem State.setResult_busyOp (s : State) (f : Bool) (c : Cause) :
    (s.setResult f c).busyOp = s.busyOp := rfl
@[simp] theorem State.setResult_v1 (s : State) (f : Bool) (c : Cause) :
    (s.setResult f c).v1 = s.v1 := rfl
@[simp] theorem State.setResult_prog (s : State) (f : Bool) (c : Cause) :
    (s.setResult f c).prog = s.prog := rfl
@[simp] theorem State.setResult_sched (s : State) (f : Bool) (c : Cause) :
    (s.setResult f c).sched = s.sched := rfl
@[simp] theorem State.setResult_trace (s : State) (f : Bool) (c : Cause) :
    (s.setResult f c).trace = s.trace := rfl
@[simp] theorem State.setResult_freeIdx (s : State) (f : Bool) (c : Cause) :
    (s.setResult f c).freeIdx = s.freeIdx := rfl

/-! ### `State.setSelection` -/

@[simp] theorem State.setSelection_par (s : State) (sel : Selection) :
    (s.setSelection sel).par = s.par := rfl
@[simp] theorem State.setSelection_tstate (s : State) (sel : Selection) :
    (s.setSelection sel).tstate = s.tstate := rfl
@[simp] theorem State.setSelection_csSel (s : State) (sel : Selection) :
    (s.setSelection sel).csSel = sel.cs := rfl
@[simp] theorem State.setSelection_csHw (s : State) (sel : Selection) :
    (s.setSelection sel).csHw = if s.tstate = .running then sel.cs else s.csHw := rfl
@[simp] theorem State.setSelection_top (s : State) (sel : Selection) :
    (s.setSelection sel).top = sel.top := rfl
@[simp] theorem State.setSelection_cnt (s : State) (sel : Selection) :
    (s.setSelection sel).cnt = s.cnt := rfl
@[simp] theorem State.setSelection_dir (s : State) (sel : Selection) :
    (s.setSelection sel).dir = s.dir := rfl
@[simp] theorem State.setSelection_cb (s : State) (sel : Selection) :
    (s.setSelection sel).cb = s.cb := rfl
@[simp] theorem State.setSelection_ie (s : State) (sel : Selection) :
    (s.setSelection sel).ie = s.ie := rfl
@[simp] theorem State.setSelection_pend (s : State) (sel : Selection) :
    (s.setSelection sel).pend = s.pend := rfl
@[simp] theorem State.setSelection_inflight (s : State) (sel : Selection) :
    (s.setSelection sel).inflight = s.inflight := rfl
@[simp] theorem State.setSelection_active (s : State) (sel : Selection) :
    (s.setSelection sel).active = s.active := rfl
@[simp] theorem State.setSelection_fresh (s : State) (sel : Selection) :
    (s.setSelection sel).fresh = s.fresh := rfl
@[simp] theorem State.setSelection_oce (s : State) (sel : Selection) :
    (s.setSelection sel).oce = s.oce := rfl
@[simp] theorem State.setSelection_cmp (s : State) (sel : Selection) :
    (s.setSelection sel).cmp = s.cmp := rfl
@[simp] theorem State.setSelection_arg0 (s : State) (sel : Selection) :
    (s.setSelection sel).arg0 = s.arg0 := rfl
@[simp] theorem State.setSelection_arg1 (s : State) (sel : Selection) :
    (s.setSelection sel).arg1 = s.arg1 := rfl
@[simp] theorem State.setSelection_data (s : State) (sel : Selection) :
    (s.setSelection sel).data = s.data := rfl
@[simp] theorem State.setSelection_fail (s : State) (sel : Selection) :
    (s.setSelection sel).fail = s.fail := rfl
@[simp] theorem State.setSelection_cause (s : State) (sel : Selection) :
    (s.setSelection sel).cause = s.cause := rfl
@[simp] theorem State.setSelection_busyOp (s : State) (sel : Selection) :
    (s.setSelection sel).busyOp = s.busyOp := rfl
@[simp] theorem State.setSelection_v1 (s : State) (sel : Selection) :
    (s.setSelection sel).v1 = s.v1 := rfl
@[simp] theorem State.setSelection_prog (s : State) (sel : Selection) :
    (s.setSelection sel).prog = s.prog := rfl
@[simp] theorem State.setSelection_sched (s : State) (sel : Selection) :
    (s.setSelection sel).sched = s.sched := rfl
@[simp] theorem State.setSelection_trace (s : State) (sel : Selection) :
    (s.setSelection sel).trace = s.trace := rfl
@[simp] theorem State.setSelection_freeIdx (s : State) (sel : Selection) :
    (s.setSelection sel).freeIdx = s.freeIdx := rfl

/-! ### `State.setOce` -/

@[simp] theorem State.setOce_par (s : State) (ch : Nat) (b : Bool) :
    (s.setOce ch b).par = s.par := rfl
@[simp] theorem State.setOce_tstate (s : State) (ch : Nat) (b : Bool) :
    (s.setOce ch b).tstate = s.tstate := rfl
@[simp] theorem State.setOce_csSel (s : State) (ch : Nat) (b : Bool) :
    (s.setOce ch b).csSel = s.csSel := rfl
@[simp] theorem State.setOce_csHw (s : State) (ch : Nat) (b : Bool) :
    (s.setOce ch b).csHw = s.csHw := rfl
@[simp] theorem State.setOce_top (s : State) (ch : Nat) (b : Bool) :
    (s.setOce ch b).top = s.top := rfl
@[simp] theorem State.setOce_cnt (s : State) (ch : Nat) (b : Bool) :
    (s.setOce ch b).cnt = s.cnt := rfl
@[simp] theorem State.setOce_dir (s : State) (ch : Nat) (b : Bool) :
    (s.setOce ch b).dir = s.dir := rfl
@[simp] theorem State.setOce_cb (s : State) (ch : Nat) (b : Bool) :
    (s.setOce ch b).cb = s.cb := rfl
@[simp] theorem State.setOce_ie (s : State) (ch : Nat) (b : Bool) :
    (s.setOce ch b).ie = s.ie := rfl
@[simp] theorem State.setOce_pend (s : State) (ch : Nat) (b : Bool) :
    (s.setOce ch b).pend = s.pend := rfl
@[simp] theorem State.setOce_inflight (s : State) (ch : Nat) (b : Bool) :
    (s.setOce ch b).inflight = s.inflight := rfl
@[simp] theorem State.setOce_active (s : State) (ch : Nat) (b : Bool) :
    (s.setOce ch b).active = s.active := rfl
@[simp] theorem State.setOce_fresh (s : State) (ch : Nat) (b : Bool) :
    (s.setOce ch b).fresh = s.fresh := rfl
@[simp] theorem State.setOce_oce (s : State) (ch : Nat) (b : Bool) :
    (s.setOce ch b).oce = s.oce.set ch b := rfl
@[simp] theorem State.setOce_cmp (s : State) (ch : Nat) (b : Bool) :
    (s.setOce ch b).cmp = s.cmp := rfl
@[simp] theorem State.setOce_arg0 (s : State) (ch : Nat) (b : Bool) :
    (s.setOce ch b).arg0 = s.arg0 := rfl
@[simp] theorem State.setOce_arg1 (s : State) (ch : Nat) (b : Bool) :
    (s.setOce ch b).arg1 = s.arg1 := rfl
@[simp] theorem State.setOce_data (s : State) (ch : Nat) (b : Bool) :
    (s.setOce ch b).data = s.data := rfl
@[simp] theorem State.setOce_fail (s : State) (ch : Nat) (b : Bool) :
    (s.setOce ch b).fail = s.fail := rfl
@[simp] theorem State.setOce_cause (s : State) (ch : Nat) (b : Bool) :
    (s.setOce ch b).cause = s.cause := rfl
@[simp] theorem State.setOce_busyOp (s : State) (ch : Nat) (b : Bool) :
    (s.setOce ch b).busyOp = s.busyOp := rfl
@[simp] theorem State.setOce_v1 (s : State) (ch : Nat) (b : Bool) :
    (s.setOce ch b).v1 = s.v1 := rfl
@[simp] theorem State.setOce_prog (s : State) (ch : Nat) (b : Bool) :
    (s.setOce ch b).prog = s.prog := rfl
@[simp] theorem State.setOce_sched (s : State) (ch : Nat) (b : Bool) :
    (s.setOce ch b).sched = s.sched := rfl
@[simp] theorem State.setOce_trace (s : State) (ch : Nat) (b : Bool) :
    (s.setOce ch b).trace = s.trace := rfl
@[simp] theorem State.setOce_freeIdx (s : State) (ch : Nat) (b : Bool) :
    (s.setOce ch b).freeIdx = s.freeIdx := rfl

/-! ### `State.setCmp` -/

@[simp] theorem State.setCmp_par (s : State) (ch v : Nat) :
    (s.setCmp ch v).par = s.par := rfl
@[simp] theorem State.setCmp_tstate (s : State) (ch v : Nat) :
    (s.setCmp ch v).tstate = s.tstate := rfl
@[simp] theorem State.setCmp_csSel (s : State) (ch v : Nat) :
    (s.setCmp ch v).csSel = s.csSel := rfl
@[simp] theorem State.setCmp_csHw (s : State) (ch v : Nat) :
    (s.setCmp ch v).csHw = s.csHw := rfl
@[simp] theorem State.setCmp_top (s : State) (ch v : Nat) :
    (s.setCmp ch v).top = s.top := rfl
@[simp] theorem State.setCmp_cnt (s : State) (ch v : Nat) :
    (s.setCmp ch v).cnt = s.cnt := rfl
@[simp] theorem State.setCmp_dir (s : State) (ch v : Nat) :
    (s.setCmp ch v).dir = s.dir := rfl
@[simp] theorem State.setCmp_cb (s : State) (ch v : Nat) :
    (s.setCmp ch v).cb = s.cb := rfl
@[simp] theorem State.setCmp_ie (s : State) (ch v : Nat) :
    (s.setCmp ch v).ie = s.ie := rfl
@[simp] theorem State.setCmp_pend (s : State) (ch v : Nat) :
    (s.setCmp ch v).pend = s.pend := rfl
@[simp] theorem State.setCmp_inflight (s : State) (ch v : Nat) :
    (s.setCmp ch v).inflight = s.inflight := rfl
@[simp] theorem State.setCmp_active (s : State) (ch v : Nat) :
    (s.setCmp ch v).active = s.active := rfl
@[simp] theorem State.setCmp_fresh (s : State) (ch v : Nat) :
    (s.setCmp ch v).fresh = s.fresh := rfl
@[simp] theorem State.setCmp_oce (s : State) (ch v : Nat) :
    (s.setCmp ch v).oce = s.oce := rfl
@[simp] theorem State.setCmp_cmp (s : State) (ch v : Nat) :
    (s.setCmp ch v).cmp = s.cmp.set ch v := rfl
@[simp] theorem State.setCmp_arg0 (s : State) (ch v : Nat) :
    (s.setCmp ch v).arg0 = s.arg0 := rfl
@[simp] theorem State.setCmp_arg1 (s : State) (ch v : Nat) :
    (s.setCmp ch v).arg1 = s.arg1 := rfl
@[simp] theorem State.setCmp_data (s : State) (ch v : Nat) :
    (s.setCmp ch v).data = s.data := rfl
@[simp] theorem State.setCmp_fail (s : State) (ch v : Nat) :
    (s.setCmp ch v).fail = s.fail := rfl
@[simp] theorem State.setCmp_cause (s : State) (ch v : Nat) :
    (s.setCmp ch v).cause = s.cause := rfl
@[simp] theorem State.setCmp_busyOp (s : State) (ch v : Nat) :
    (s.setCmp ch v).busyOp = s.busyOp := rfl
@[simp] theorem State.setCmp_v1 (s : State) (ch v : Nat) :
    (s.setCmp ch v).v1 = s.v1 := rfl
@[simp] theorem State.setCmp_prog (s : State) (ch v : Nat) :
    (s.setCmp ch v).prog = s.prog := rfl
@[simp] theorem State.setCmp_sched (s : State) (ch v : Nat) :
    (s.setCmp ch v).sched = s.sched := rfl
@[simp] theorem State.setCmp_trace (s : State) (ch v : Nat) :
    (s.setCmp ch v).trace = s.trace := rfl
@[simp] theorem State.setCmp_freeIdx (s : State) (ch v : Nat) :
    (s.setCmp ch v).freeIdx = s.freeIdx := rfl

/-! ### `State.emit` -/

@[simp] theorem State.emit_par (s : State) (o : Output) :
    (s.emit o).par = s.par := rfl
@[simp] theorem State.emit_tstate (s : State) (o : Output) :
    (s.emit o).tstate = s.tstate := rfl
@[simp] theorem State.emit_csSel (s : State) (o : Output) :
    (s.emit o).csSel = s.csSel := rfl
@[simp] theorem State.emit_csHw (s : State) (o : Output) :
    (s.emit o).csHw = s.csHw := rfl
@[simp] theorem State.emit_top (s : State) (o : Output) :
    (s.emit o).top = s.top := rfl
@[simp] theorem State.emit_cnt (s : State) (o : Output) :
    (s.emit o).cnt = s.cnt := rfl
@[simp] theorem State.emit_dir (s : State) (o : Output) :
    (s.emit o).dir = s.dir := rfl
@[simp] theorem State.emit_cb (s : State) (o : Output) :
    (s.emit o).cb = s.cb := rfl
@[simp] theorem State.emit_ie (s : State) (o : Output) :
    (s.emit o).ie = s.ie := rfl
@[simp] theorem State.emit_pend (s : State) (o : Output) :
    (s.emit o).pend = s.pend := rfl
@[simp] theorem State.emit_inflight (s : State) (o : Output) :
    (s.emit o).inflight = s.inflight := rfl
@[simp] theorem State.emit_active (s : State) (o : Output) :
    (s.emit o).active = s.active := rfl
@[simp] theorem State.emit_fresh (s : State) (o : Output) :
    (s.emit o).fresh = s.fresh := rfl
@[simp] theorem State.emit_oce (s : State) (o : Output) :
    (s.emit o).oce = s.oce := rfl
@[simp] theorem State.emit_cmp (s : State) (o : Output) :
    (s.emit o).cmp = s.cmp := rfl
@[simp] theorem State.emit_arg0 (s : State) (o : Output) :
    (s.emit o).arg0 = s.arg0 := rfl
@[simp] theorem State.emit_arg1 (s : State) (o : Output) :
    (s.emit o).arg1 = s.arg1 := rfl
@[simp] theorem State.emit_data (s : State) (o : Output) :
    (s.emit o).data = s.data := rfl
@[simp] theorem State.emit_fail (s : State) (o : Output) :
    (s.emit o).fail = s.fail := rfl
@[simp] theorem State.emit_cause (s : State) (o : Output) :
    (s.emit o).cause = s.cause := rfl
@[simp] theorem State.emit_busyOp (s : State) (o : Output) :
    (s.emit o).busyOp = s.busyOp := rfl
@[simp] theorem State.emit_v1 (s : State) (o : Output) :
    (s.emit o).v1 = s.v1 := rfl
@[simp] theorem State.emit_prog (s : State) (o : Output) :
    (s.emit o).prog = s.prog := rfl
@[simp] theorem State.emit_sched (s : State) (o : Output) :
    (s.emit o).sched = s.sched := rfl
@[simp] theorem State.emit_trace (s : State) (o : Output) :
    (s.emit o).trace = s.trace ++ [o] := rfl
@[simp] theorem State.emit_freeIdx (s : State) (o : Output) :
    (s.emit o).freeIdx = s.freeIdx := rfl

end Sys2Proof.Machine
end

