-- ==== Sys2Proof/Laws/Ops.lean ====
section
/-! SUPPORT. What each shared operation can do, said once: the results of commands, the selection
write, the bridge, the accesses of the host, and the step. -/

namespace Sys2Proof.Machine

/-! ### Results of commands -/

@[simp] theorem finishOk_eq (s : State) : finishOk s = s.setResult false .none := rfl

@[simp] theorem finishFail_eq (c : Cause) (s : State) : finishFail c s = s.setResult true c := rfl

@[simp] theorem raiseFail_eq (c : Cause) (s : State) : raiseFail c s = s.setResult true c := rfl

@[simp] theorem illegalCommand_eq (s : State) :
    illegalCommand s = s.setResult true .invalidArgument := rfl

@[simp] theorem finishRange_eq (ok : Bool) (s : State) :
    finishRange ok s = s.setResult (!ok) (if ok then .none else .rangeViolation) := by
  cases ok <;> rfl

@[simp] theorem applySelection_eq (period : Nat) (s : State) :
    applySelection period s =
      (s.setSelection (select s.par period), (select s.par period).inRange) := rfl

@[simp] theorem deliverReading_eq (val : Nat) (s : State) :
    deliverReading val s =
      { s with data := BitVec.ofNat 32 (toUs s.par val s.csSel), fail := false, cause := .none } :=
  rfl

theorem busy_eq_false_iff (s : State) : busy s = false ↔ s.busyOp = .none := by simp [busy]

theorem busy_eq_true_iff (s : State) : busy s = true ↔ s.busyOp ≠ .none := by simp [busy]

/-! ### The window -/

/-- Which accesses are admitted: whole words, at an address of the window that holds a register. -/
theorem resolveAccess_eq_ok {p : Params} {addr width : Nat} {reg : Reg}
    (h : resolveAccess p addr width = .ok reg) :
    width = 4 ∧ p.base ≤ addr ∧ addr < p.base + 128 ∧ (addr - p.base) % 4 = 0 ∧
      regAt p (addr - p.base) = some reg := by
  unfold resolveAccess at h
  split at h
  · cases h
  split at h
  · cases h
  split at h
  · cases h
  split at h
  · cases h
    exact ⟨by omega, by omega, by omega, by omega, by assumption⟩
  · cases h

/-- A write to the window issues a command, sets an operand register, or changes nothing. -/
theorem writeReg_next {v : Word} {s t : State} {reg : Reg} (h : writeReg v s reg = .next t) :
    (∃ i, decodeWord s.par.mode v = .command i ∧ exec i s = .next t) ∨
    t = illegalCommand s ∨ t = { s with arg0 := v } ∨ t = { s with arg1 := v } ∨ t = s := by
  cases reg <;> simp only [writeReg, issue] at h
  case cmd =>
    split at h
    · exact .inl ⟨_, by assumption, h⟩
    · cases h; exact .inr (.inl rfl)
  case arg0 => cases h; exact .inr (.inr (.inl rfl))
  case arg1 => cases h; exact .inr (.inr (.inr (.inl rfl)))
  all_goals cases h; exact .inr (.inr (.inr (.inr rfl)))

/-! ### The agents -/

/-- Everything the host's step can do: it gives the host a word of the window and changes nothing
else, or, where BUSY = 0, it writes the window. -/
theorem hostStep_next {s t : State} (h : hostStep s = .next t) :
    (∃ a v pr, t = { s with trace := s.trace ++ [.readData a v], prog := pr }) ∨
    (s.busyOp = .none ∧ ∃ v pr reg, writeReg v { s with prog := pr } reg = .next t) := by
  unfold hostStep at h
  split at h
  · cases h
  rename_i op rest _
  cases op with
  | read addr width =>
    simp only [hostAccess] at h
    split at h
    · cases h; exact .inl ⟨_, _, _, rfl⟩
    · cases h
  | write addr width v =>
    simp only [hostAccess] at h
    split at h
    · split at h
      · cases h
      · rename_i hb
        exact .inr ⟨by simpa [busy] using hb, v, rest, _, h⟩
    · cases h
  | poll =>
    simp only [hostAccess] at h
    split at h
    · cases h; exact .inl ⟨_, _, s.prog, rfl⟩
    · cases h; exact .inl ⟨_, _, _, rfl⟩

/-- Everything an agent's step can do. -/
theorem takeTurn_next {a : Turn} {s t : State} (h : takeTurn a s = .next t) :
    (a = .host ∧ hostStep s = .next t) ∨
    (a = .counter ∧ tickEnabled s = true ∧ t = tick s) ∨
    (a = .latch ∧ latchEnabled s = true ∧ t = latch s) ∨
    (a = .invoke ∧ invokeEnabled s = true ∧ t = invoke s) ∨
    (a = .callbackReturn ∧ returnEnabled s = true ∧ t = callbackReturn s) := by
  cases a <;> simp only [takeTurn] at h
  case host => exact .inl ⟨rfl, h⟩
  all_goals
    split at h
    · cases h; simp_all
    · cases h

/-- Everything a step can do: the instance is well-formed, and the machine stands still because the
schedule is empty and no agent has a step, or the next agent's step is taken. -/
theorem step_next {s t : State} (h : step s = .next t) :
    paramsOk s.par = true ∧
      ((nextTurn s = none ∧ t = s) ∨
        ∃ a, nextTurn s = some a ∧ takeTurn a (consumeTurn s) = .next t) := by
  unfold step at h
  split at h
  · rename_i hp
    refine ⟨hp, ?_⟩
    unfold agentStep at h
    split at h
    · exact .inr ⟨_, by assumption, h⟩
    · cases h; exact .inl ⟨by assumption, rfl⟩
  · cases h

/-- A step of a well-formed instance whose schedule names an agent. -/
theorem step_of_sched {s : State} {a : Turn} {ts : List Turn} (hp : paramsOk s.par = true)
    (hs : s.sched = a :: ts) : step s = takeTurn a { s with sched := ts } := by
  simp [step, hp, agentStep, nextTurn, consumeTurn, hs]

/-- The turn taken writes the schedule or the free-value index and nothing else. -/
theorem consumeTurn_cases (s : State) :
    (∃ ts, consumeTurn s = { s with sched := ts }) ∨
      consumeTurn s = { s with freeIdx := s.freeIdx + 1 } := by
  unfold consumeTurn
  split
  · exact .inl ⟨_, rfl⟩
  · exact .inr rfl

/-- The free choice is one of the enabled agents. -/
theorem freeTurn_enabled {s : State} {a : Turn} (h : freeTurn s = some a) :
    turnEnabled s a = true := by
  unfold freeTurn at h
  have hm := List.mem_of_getElem? h
  simp only [enabledTurns, List.mem_filter] at hm
  exact hm.2

end Sys2Proof.Machine
end

