-- ==== Sys2Proof/Laws/Exec.lean ====
section
/-! SUPPORT. What no command does: the fields that every command leaves as they are. -/

namespace Sys2Proof.Machine

/-- No command writes the parameters, PEND, INFLIGHT, ACTIVE, the operand registers, the inputs, the
outputs or the free-value index (R41, R45, R70). -/
theorem exec_frame {i : Instr} {s t : State} (h : exec i s = .next t) :
    t.par = s.par ∧ t.pend = s.pend ∧ t.inflight = s.inflight ∧ t.active = s.active ∧
    t.arg0 = s.arg0 ∧ t.arg1 = s.arg1 ∧ t.prog = s.prog ∧ t.sched = s.sched ∧
    t.trace = s.trace ∧ t.freeIdx = s.freeIdx := by
  cases i <;>
    simp only [exec, execInit, execSetPeriod, execStart, execStop, execResume, execAttach,
      execDetach, execRead, execPwmEnable, execPwmDisable, execPwmSetDuty] at h <;>
    (repeat' split at h) <;> cases h <;> simp [startCounter]

/-- The tick's own effects leave all but CNT, DIR, PEND, FRESH and the free-value index. -/
theorem tickCounter_frame (s : State) :
    tickCounter s = { s with
      cnt := (tickCounter s).cnt, dir := (tickCounter s).dir, pend := (tickCounter s).pend
      fresh := false, freeIdx := (tickCounter s).freeIdx } := rfl

/-- What a tick does: its own effects, and the completion of the waiting command, if any. -/
theorem tick_cases (s : State) :
    (s.busyOp = .none ∧ tick s = tickCounter s) ∨
    (s.busyOp = .startGuard ∧ tick s = completeStart (tickCounter s)) ∨
    (s.busyOp = .readProbe ∧ tick s = completeRead (tickCounter s)) := by
  have hb : (tickCounter s).busyOp = s.busyOp := rfl
  cases h : s.busyOp
  · exact .inl ⟨rfl, by simp [tick, completeWait, hb, h]⟩
  · exact .inr (.inl ⟨rfl, by simp [tick, completeWait, hb, h]⟩)
  · exact .inr (.inr ⟨rfl, by simp [tick, completeWait, hb, h]⟩)

end Sys2Proof.Machine
end

