-- ==== Sys2Proof/Laws/Params.lean ====
section
/-! SUPPORT. What a well-formed instance gives (R8, R11): the facts of `paramsOk` in the form that
proofs about the selector and the conversion use. -/

namespace Sys2Proof.Machine

theorem noClk_eq : noClk = 0 := rfl

/-- `shift` is the log2 of the code's ratio, and 0 for NOCLK (R12). -/
theorem shift_eq {p : Params} {c k : Nat}
    (h : if c = 0 then k = 0 else p.table[c - 1]? = some (2 ^ k)) : shift p c = k := by
  unfold shift
  split at h
  · simp_all [noClk_eq]
  · rw [if_neg (by rwa [noClk_eq]), ratio, List.getD_eq_getElem?_getD, h, Option.getD_some,
      Nat.log2_two_pow]

/-- The ratios after `t` are greater than `t` and multiples of it. -/
theorem ratiosOk_dvd (ts : List Nat) (t : Nat) (ht : 0 < t) (h : ratiosOk t ts = true) :
    ∀ i, i < ts.length → t < ts.getD i 1 ∧ t ∣ ts.getD i 1 := by
  induction ts generalizing t with
  | nil => intro i hi; simp at hi
  | cons u us ih =>
    intro i hi
    simp only [ratiosOk, Bool.and_eq_true, decide_eq_true_eq] at h
    obtain ⟨⟨h1, -, h3⟩, h4⟩ := h
    have hd : t ∣ u := Nat.dvd_of_mod_eq_zero h3
    cases i with
    | zero => simpa using ⟨h1, hd⟩
    | succ i =>
      have := ih u (by omega) h4 i (by simpa using hi)
      simp only [List.getD_cons_succ]
      exact ⟨by omega, dvd_trans hd this.2⟩

/-- An earlier ratio is less than a later one and divides it. -/
theorem ratiosOk_pairwise (ts : List Nat) (t : Nat) (ht : 0 < t) (h : ratiosOk t ts = true) :
    ∀ i j, i < j → j < ts.length → ts.getD i 1 < ts.getD j 1 ∧ ts.getD i 1 ∣ ts.getD j 1 := by
  induction ts generalizing t with
  | nil => intro i j _ hj; simp at hj
  | cons u us ih =>
    intro i j hij hj
    simp only [ratiosOk, Bool.and_eq_true, decide_eq_true_eq] at h
    cases j with
    | zero => omega
    | succ j =>
      cases i with
      | zero => simpa using ratiosOk_dvd us u (by omega) h.2 j (by simpa using hj)
      | succ i => simpa using ih u (by omega) h.2 i j (by omega) (by simpa using hj)

/-- Each ratio is a power of two. -/
theorem ratiosOk_pow (ts : List Nat) (t : Nat) (h : ratiosOk t ts = true) :
    ∀ i, i < ts.length → ts.getD i 1 = 2 ^ Nat.log2 (ts.getD i 1) := by
  induction ts generalizing t with
  | nil => intro i hi; simp at hi
  | cons u us ih =>
    intro i hi
    simp only [ratiosOk, Bool.and_eq_true, decide_eq_true_eq] at h
    cases i with
    | zero => simpa using h.1.2.1
    | succ i => simpa using ih u h.2 i (by simpa using hi)

/-- What R11, R8 and R64 say of a well-formed instance. -/
structure ParamsFacts (p : Params) : Prop where
  resolution : p.r = 8 ∨ p.r = 16
  clock : 1000 ≤ p.fHz
  nCodes_pos : 1 ≤ nCodes p
  nCodes_le : nCodes p ≤ 7
  ratio_one : ratio p 1 = 1
  ratio_pos : ∀ c, 0 < ratio p c
  ratio_lt : ∀ c d, 1 ≤ c → c < d → d ≤ nCodes p → ratio p c < ratio p d
  ratio_dvd : ∀ c d, 1 ≤ c → c < d → d ≤ nCodes p → ratio p c ∣ ratio p d
  ratio_eq : ∀ c, 1 ≤ c → c ≤ nCodes p → ratio p c = 2 ^ shift p c
  conversion : ((2 ^ (p.r + 1) - 2) * 1000) / (p.fHz / 1000) * 2 ^ shift p (nCodes p) < 2 ^ 32
  channels : p.nch ≤ 15
  base : p.base % 128 = 0

theorem paramsOk_facts {p : Params} (h : paramsOk p = true) : ParamsFacts p := by
  simp only [paramsOk, Bool.and_eq_true] at h
  obtain ⟨⟨⟨⟨⟨h1, h2⟩, h3⟩, h4⟩, h5⟩, h6⟩ := h
  cases ht : p.table with
  | nil => simp [ht, tableOk] at h3
  | cons t ts =>
    simp only [ht, tableOk, Bool.and_eq_true, decide_eq_true_eq] at h3
    obtain ⟨⟨rfl, hl⟩, hr⟩ := h3
    have tail : ∀ c, 1 ≤ c → c ≠ 1 → ratio p c = ts.getD (c - 2) 1 := by
      intro c hc hc'
      obtain ⟨k, rfl⟩ : ∃ k, c = k + 2 := ⟨c - 2, by omega⟩
      simp [ratio, ht]
    have one : ratio p 1 = 1 := by simp [ratio, ht]
    have n : nCodes p = ts.length + 1 := by simp [nCodes, ht]
    have pair : ∀ c d, 1 ≤ c → c < d → d ≤ nCodes p →
        ratio p c < ratio p d ∧ ratio p c ∣ ratio p d := by
      intro c d hc hcd hd
      rw [tail d (by omega) (by omega)]
      by_cases h : c = 1
      · subst h; rw [one]; exact ratiosOk_dvd ts 1 (by omega) hr _ (by omega)
      · rw [tail c (by omega) h]
        exact ratiosOk_pairwise ts 1 (by omega) hr _ _ (by omega) (by omega)
    refine ⟨by simpa [resolutionOk] using h1, by simpa [clockOk] using h2, by omega, by omega, one,
      ?_, fun c d a b e => (pair c d a b e).1, fun c d a b e => (pair c d a b e).2, ?_,
      by simpa [conversionOk] using h5, ?_, by simpa [baseOk] using h6⟩
    · intro c
      by_cases h : c ≤ 1
      · have : c - 1 = 0 := by omega
        simp [ratio, ht, this]
      · rw [tail c (by omega) (by omega)]
        by_cases h' : c - 2 < ts.length
        · have := ratiosOk_dvd ts 1 (by omega) hr (c - 2) h'
          omega
        · rw [List.getD_eq_default _ _ (by omega)]
          omega
    · intro c hc hd
      rw [shift, if_neg (by simp only [noClk_eq]; omega)]
      by_cases h : c = 1
      · subst h; rw [one]; rfl
      · rw [tail c (by omega) h]; exact ratiosOk_pow ts 1 hr _ (by omega)
    · unfold channelsOk at h4
      split at h4 <;> simp at h4 <;> omega

end Sys2Proof.Machine
end

