-- ==== Sys2Proof/Laws/Meanings.lean ====
section
/-! SUPPORT. The conditions that the meanings test, as propositions; the operands; the window's
registers; and small facts about ticks and outputs. -/

namespace Sys2Proof.Machine

/-! ### Conditions of the meanings -/

theorem guardApplies_iff (s : State) :
    guardApplies s = true ↔ s.par.mode = .sym ∧ s.cb ≠ 0 ∧ s.csSel ≠ 0 := by
  rw [guardApplies, decide_eq_true_iff]; exact Iff.rfl

theorem probeApplies_iff (s : State) :
    probeApplies s = true ↔ s.par.mode = .sym ∧ s.csHw ≠ 0 := by
  rw [probeApplies, decide_eq_true_iff]; exact Iff.rfl

theorem configured_iff (s : State) :
    configured s = true ↔ s.tstate = .ready ∨ s.tstate = .running ∨ s.tstate = .stopped := by
  unfold configured
  cases s.tstate <;> simp

theorem dutyInRange_iff (p : Params) (d : Nat) : dutyInRange p d = true ↔ d ≤ 2 ^ p.r := by
  simp [dutyInRange]

theorem latchEnabled_iff (s : State) :
    latchEnabled s = true ↔ s.pend = true ∧ s.ie = true ∧ s.busyOp = .none ∧ s.inflight = 0 := by
  simp [latchEnabled, busy, and_assoc]

theorem invokeEnabled_iff (s : State) :
    invokeEnabled s = true ↔ s.inflight ≠ 0 ∧ s.active = false ∧ s.busyOp = .none := by
  simp [invokeEnabled, busy, and_assoc]

theorem returnEnabled_iff (s : State) :
    returnEnabled s = true ↔ s.active = true ∧ s.busyOp = .none := by
  simp [returnEnabled, busy]

theorem tickEnabled_iff (s : State) : tickEnabled s = true ↔ s.csHw ≠ 0 := by
  rw [tickEnabled, decide_eq_true_iff]; exact Iff.rfl

theorem drawAsked_iff (s : State) :
    drawAsked s = true ↔ s.par.mode = .sym ∧ s.fresh = true ∧ s.ie = true := by
  simp [drawAsked, and_assoc]

/-! ### The duty mapping (R180) -/

/-- A duty in range gives a compare value of at most TOP. -/
theorem dutyToCmp_le_of_le {p : Params} {top d : Nat} (h : d ≤ 2 ^ p.r) :
    dutyToCmp p top d ≤ top := by
  have hp : 0 < 2 ^ p.r := by positivity
  exact (Nat.div_le_div_right (Nat.mul_le_mul_left top h)).trans (by simp [Nat.mul_div_cancel _ hp])

/-! ### The window -/

/-- A register of the map stands at its offset, a word of the window. -/
theorem regAt_regOffset {p : Params} {reg : Reg} (hn : p.nch ≤ 15)
    (h : ∀ ch, reg = .cmp ch → ch < p.nch) :
    regAt p (regOffset reg) = some reg ∧ regOffset reg % 4 = 0 ∧ regOffset reg < 128 := by
  cases reg
  case cmp ch =>
    have hc := h ch rfl
    refine ⟨?_, by simp [regOffset], by simp [regOffset]; omega⟩
    have : ch < 15 := by omega
    unfold regAt regOffset
    interval_cases ch <;> simp [hc]
  all_goals simp [regAt, regOffset]

/-- A word access at a register's address is admitted and reaches it. -/
theorem resolveAccess_regAddr {p : Params} {reg : Reg} (hp : paramsOk p = true)
    (h : ∀ ch, reg = .cmp ch → ch < p.nch) : resolveAccess p (regAddr p reg) 4 = .ok reg := by
  obtain ⟨h1, h2, h3⟩ := regAt_regOffset (paramsOk_facts hp).channels h
  simp [resolveAccess, regAddr, h1, h2, h3]

/-! ### Ticks -/

@[simp] theorem tickCounter_pend (s : State) :
    (tickCounter s).pend = (s.pend || (count s).event || spurious s) := rfl

@[simp] theorem tickCounter_cnt (s : State) : (tickCounter s).cnt = (count s).cnt := rfl

@[simp] theorem tickCounter_dir (s : State) : (tickCounter s).dir = (count s).dir := rfl

@[simp] theorem tickCounter_busyOp (s : State) : (tickCounter s).busyOp = s.busyOp := rfl

/-- Everything a tick does where no command waits. -/
theorem tick_of_idle {s : State} (h : s.busyOp = .none) :
    tick s = { s with
      cnt := (count s).cnt, dir := (count s).dir
      pend := s.pend || (count s).event || spurious s
      fresh := false
      freeIdx := if drawAsked s then s.freeIdx + 1 else s.freeIdx } := by
  rcases tick_cases s with ⟨_, e⟩ | ⟨e, _⟩ | ⟨e, _⟩
  · rw [e]; rfl
  · simp [h] at e
  · simp [h] at e

end Sys2Proof.Machine
end

