-- ==== Sys2Proof/Laws/Selector.lean ====
section
/-! SUPPORT. Everything the ratio search of the selector can answer (R102, R104). -/

namespace Sys2Proof.Machine

/-- An accepted ratio is the first whose quotient fits. -/
theorem findRatio_eq_some {ts : List Nat} {limit c i cs v : Nat}
    (h : findRatio limit c i ts = some (cs, v)) :
    ∃ j, j < ts.length ∧ cs = i + j + 1 ∧ v = c / ts.getD j 1 ∧ v < limit ∧
      ∀ k < j, limit ≤ c / ts.getD k 1 := by
  induction ts generalizing i with
  | nil => simp [findRatio] at h
  | cons t ts ih =>
    unfold findRatio at h
    split at h
    · cases h
      exact ⟨0, by simp, by simp, by simp, by assumption, by intro k hk; omega⟩
    · obtain ⟨j, h1, h2, h3, h4, h5⟩ := ih h
      refine ⟨j + 1, by simpa using h1, by omega, by simpa using h3, h4, ?_⟩
      intro k hk
      cases k with
      | zero => simpa using (by omega : limit ≤ c / t)
      | succ k => simpa using h5 k (by omega)

/-- The search fails exactly where no quotient fits. -/
theorem findRatio_eq_none_iff {ts : List Nat} {limit c i : Nat} :
    findRatio limit c i ts = none ↔ ∀ k < ts.length, limit ≤ c / ts.getD k 1 := by
  induction ts generalizing i with
  | nil => simp [findRatio]
  | cons t ts ih =>
    unfold findRatio
    split
    · rename_i h
      simp only [reduceCtorEq, false_iff, not_forall]
      exact ⟨0, by simp, by simpa using h⟩
    · rename_i h
      rw [ih]
      constructor
      · intro g k hk
        cases k with
        | zero => simpa using (by omega : limit ≤ c / t)
        | succ k => simpa using g k (by simpa using hk)
      · intro g k hk
        simpa using g (k + 1) (by simpa using hk)

/-- Everything `selectCycles` can answer: the least code whose quotient fits, or the clamp. -/
theorem selectCycles_cases (p : Params) (c : Nat) :
    (∃ cs, 1 ≤ cs ∧ cs ≤ nCodes p ∧
      selectCycles p c = { cs := cs, top := c / ratio p cs, inRange := true } ∧
      c / ratio p cs < 2 ^ p.r ∧ ∀ k, 1 ≤ k → k < cs → 2 ^ p.r ≤ c / ratio p k) ∨
    (selectCycles p c = { cs := nCodes p, top := maxTop p, inRange := false } ∧
      ∀ k, 1 ≤ k → k ≤ nCodes p → 2 ^ p.r ≤ c / ratio p k) := by
  unfold selectCycles
  split
  · rename_i cs top h
    obtain ⟨j, h1, h2, h3, h4, h5⟩ := findRatio_eq_some h
    refine .inl ⟨cs, by omega, by simp [nCodes]; omega, ?_, ?_, ?_⟩
    · simp [ratio, h3, h2]
    · simpa [ratio, h3, h2] using h4
    · intro k hk hk'; simpa [ratio] using h5 (k - 1) (by omega)
  · rename_i h
    rw [findRatio_eq_none_iff] at h
    refine .inr ⟨rfl, fun k h1 h2 => ?_⟩
    simpa [ratio] using h (k - 1) (by simp [nCodes] at h2; omega)

end Sys2Proof.Machine
end

