-- ==== Sys2Proof/Laws/Invariant.lean ====
section
/-! SUPPORT. The named updates of the state keep the invariant, and what runs of ticks and outputs
are made of. -/

namespace Sys2Proof.Machine

/-- The selection of a well-formed instance fits its fields. -/
theorem select_bounds {p : Params} (h : paramsOk p = true) (period : Nat) :
    (select p period).cs ≤ nCodes p ∧ (select p period).top ≤ maxTop p := by
  have hf := paramsOk_facts h
  rcases selectCycles_cases p (cycles p period) with ⟨cs, _, h2, h3, h4, _⟩ | ⟨h3, _⟩
  · simp only [select, h3, maxTop]
    exact ⟨h2, by omega⟩
  · simp [select, h3]

/-- A result whose cause agrees with its FAIL bit keeps the invariant. -/
theorem inv_setResult {s : State} (h : Inv s) {fail : Bool} {cause : Cause}
    (hc : fail = false ↔ cause = .none) : Inv (s.setResult fail cause) :=
  { h with fail_cause := hc }

theorem inv_setOce {s : State} (h : Inv s) (ch : Nat) (b : Bool) : Inv (s.setOce ch b) :=
  { h with oce_length := by simpa using h.oce_length }

/-- A compare value of at most TOP keeps the invariant (R44). -/
theorem inv_setCmp {s : State} (h : Inv s) {ch v : Nat} (hv : v ≤ s.top) : Inv (s.setCmp ch v) :=
  { h with
    cmp_length := by simpa using h.cmp_length
    cmp_le := by
      intro w hw
      rcases List.mem_or_eq_of_mem_set hw with h' | rfl
      · exact h.cmp_le w h'
      · exact hv.trans h.top_le }

/-- The selection write keeps the invariant where no command waits (R35, R121). -/
theorem inv_setSelection {s : State} (h : Inv s) (hb : s.busyOp = .none) (period : Nat) :
    Inv (s.setSelection (select s.par period)) :=
  { h with
    top_le := (select_bounds h.params period).2
    csSel_le := (select_bounds h.params period).1
    csHw_le := by
      simp only [State.setSelection_csHw, State.setSelection_par]
      split
      · exact (select_bounds h.params period).1
      · exact h.csHw_le
    idle_clock := by
      intro _
      have := h.idle_clock hb
      simp only [State.setSelection_csHw, State.setSelection_csSel, State.setSelection_tstate]
      split <;> simp_all
    wait_clock := fun hb' => absurd hb hb' }

/-- The inputs, the outputs and the free-value index are no part of the invariant. -/
theorem inv_of_io {s : State} (h : Inv s) (prog : List HostOp) (sched : List Turn)
    (trace : List Output) (freeIdx : Nat) :
    Inv { s with prog := prog, sched := sched, trace := trace, freeIdx := freeIdx } := by
  cases h; constructor <;> assumption

/-- One tick more, taken last. -/
theorem ticks_succ (k : Nat) (s : State) : ticks (k + 1) s = tick (ticks k s) := by
  induction k generalizing s with
  | zero => rfl
  | succ k ih => rw [ticks, ih]; rfl

/-- The callbacks of outputs one after the other. -/
theorem callbacks_append (a b : List Output) : callbacks (a ++ b) = callbacks a ++ callbacks b := by
  induction a with
  | nil => rfl
  | cons o os ih => cases o <;> simp [callbacks, ih]

end Sys2Proof.Machine
end

