-- ==== Sys2Proof/Laws/PerInstr.lean ====
section
/-! SUPPORT. The family `EncodeFields`: the fields of every command's word are the ones of R80, one
lemma per command. -/

namespace Sys2Proof.Laws

/-- The word of a command holds its operation code in OP, its channel in CH and 0 in RSV, provided
that the channel fits its field (R80, R84, R85). -/
def EncodeFields.Statement (i : Instr) : Prop :=
  i.channelFits = true →
    (opField (encode i)).toNat = i.opcode ∧ (chField (encode i)).toNat = i.channel ∧
      rsvField (encode i) = 0

theorem EncodeFields.init : EncodeFields.Statement .init := fun _ => by decide

theorem EncodeFields.setPeriod : EncodeFields.Statement .setPeriod := fun _ => by decide

theorem EncodeFields.start : EncodeFields.Statement .start := fun _ => by decide

theorem EncodeFields.stop : EncodeFields.Statement .stop := fun _ => by decide

theorem EncodeFields.resume : EncodeFields.Statement .resume := fun _ => by decide

theorem EncodeFields.attach : EncodeFields.Statement .attach := fun _ => by decide

theorem EncodeFields.detach : EncodeFields.Statement .detach := fun _ => by decide

theorem EncodeFields.read : EncodeFields.Statement .read := fun _ => by decide

theorem EncodeFields.pwmEnable (ch : Nat) : EncodeFields.Statement (.pwmEnable ch) := by
  intro h
  have h : ch < 16 := by simpa [Instr.channelFits] using h
  interval_cases ch <;> decide

theorem EncodeFields.pwmDisable (ch : Nat) : EncodeFields.Statement (.pwmDisable ch) := by
  intro h
  have h : ch < 16 := by simpa [Instr.channelFits] using h
  interval_cases ch <;> decide

theorem EncodeFields.pwmSetDuty (ch : Nat) : EncodeFields.Statement (.pwmSetDuty ch) := by
  intro h
  have h : ch < 16 := by simpa [Instr.channelFits] using h
  interval_cases ch <;> decide

end Sys2Proof.Laws
end

