-- ==== Sys2Proof/Tests/Slice0.lean ====
section
/-! SUPPORT. Tests of the model: the smoke tests of WellFormed and of the instance check, words
written out from the encoding, single steps from the worked examples and vectors of spec/, and for
each obligation with hypotheses a concrete case that meets them. The expected values are the spec's
(95_test_vectors.md and the examples of the rules), not the model's own answers. -/

namespace Sys2Proof.Tests

open Sys2Proof Sys2Proof.Machine

/-! ### Helpers -/

/-- The CTC instance of most vectors: R = 16, 16 MHz, TABLE_5. -/
def ctcPar : Params :=
  { r := 16, fHz := 16000000, table := table5, mode := .ctc, nch := 0, base := 0x100 }

/-- The SYM instance of most vectors, with two channels. -/
def symPar : Params :=
  { r := 16, fHz := 16000000, table := table5, mode := .sym, nch := 2, base := 0x100 }

def parOf : Mode → Params
  | .ctc => ctcPar
  | .sym => symPar

/-- An instance in one lifecycle state, with the clock ÷1 and TOP = 8000. -/
def at' (m : Mode) (t : TimerState) : State :=
  { State.resetOf (parOf m) with
    tstate := t, csSel := 1, csHw := if t = .running then 1 else 0, top := 8000 }

/-- The next state, if there is one. -/
def next? (o : Host.Outcome State Fault Refusal) : Option State :=
  match o with
  | .next t => some t
  | .fault _ => none
  | .refused _ => none

/-- The fault, if there is one. -/
def fault? (o : Host.Outcome State Fault Refusal) : Option Fault :=
  match o with
  | .next _ => none
  | .fault f => some f
  | .refused _ => none

/-- The instance check refuses these parameters, and so does every step. -/
def refuses (p : Params) : Bool :=
  !paramsOk p &&
    match step (State.resetOf p) with
    | .refused .illFormedInstance => true
    | _ => false

/-- The state after a step, or the same state. -/
def after (s : State) : State := (next? (step s)).getD s

theorem exists_next {o : Host.Outcome State Fault Refusal} {p : State → Bool}
    (h : (next? o).any p = true) : ∃ t, o = .next t ∧ p t = true := by
  cases o with
  | next t => exact ⟨t, rfl, by simpa [next?] using h⟩
  | fault f => simp [next?] at h
  | refused r => simp [next?] at h

/-! ### WellFormed: each check refuses an ill-formed term -/

theorem test_wf_channel_field :
    (Instr.pwmEnable 16).wf .sym = false ∧ (Instr.pwmDisable 16).wf .sym = false ∧
    (Instr.pwmSetDuty 16).wf .sym = false ∧ (Instr.pwmEnable 15).wf .sym = true := by decide

theorem test_wf_pwm_in_ctc :
    (Instr.pwmEnable 0).wf .ctc = false ∧ (Instr.pwmDisable 0).wf .ctc = false ∧
    (Instr.pwmSetDuty 0).wf .ctc = false ∧ Instr.read.wf .ctc = true := by decide

theorem test_params_resolution : refuses { ctcPar with r := 12 } = true := by decide

theorem test_params_clock : refuses { ctcPar with fHz := 999 } = true := by decide

theorem test_params_table :
    refuses { ctcPar with table := [] } = true ∧
    refuses { ctcPar with table := [2, 8] } = true ∧
    refuses { ctcPar with table := [1, 8, 8] } = true ∧
    refuses { ctcPar with table := [1, 8, 4] } = true ∧
    refuses { ctcPar with table := [1, 12] } = true ∧
    refuses { ctcPar with table := [1, 2, 4, 8, 16, 32, 64, 128] } = true := by decide

theorem test_params_channels :
    refuses { ctcPar with nch := 1 } = true ∧ refuses { symPar with nch := 0 } = true ∧
    refuses { symPar with nch := 16 } = true := by decide

theorem test_params_conversion : refuses { ctcPar with fHz := 1000, table := [1, 65536] } = true := by
  decide

theorem test_params_base : refuses { ctcPar with base := 0x140 } = true := by decide

theorem test_params_ok :
    paramsOk ctcPar = true ∧ paramsOk symPar = true ∧ paramsOk resetParams = true ∧
    paramsOk { symPar with r := 8, table := table7, nch := 15 } = true := by decide

/-! ### Decoding: the words of opcode_table.json's encodings, bit by bit -/

theorem test_decode_init :
    decodeWord .ctc 0b00000000000000000000000000000001#32 = .command .init := by decide

theorem test_decode_setPeriod :
    decodeWord .sym 0b00000000000000000000000000000010#32 = .command .setPeriod := by decide

theorem test_decode_start :
    decodeWord .ctc 0b00000000000000000000000000000011#32 = .command .start := by decide

theorem test_decode_stop :
    decodeWord .sym 0b00000000000000000000000000000100#32 = .command .stop := by decide

theorem test_decode_resume :
    decodeWord .ctc 0b00000000000000000000000000000101#32 = .command .resume := by decide

theorem test_decode_attach :
    decodeWord .sym 0b00000000000000000000000000000110#32 = .command .attach := by decide

theorem test_decode_detach :
    decodeWord .ctc 0b00000000000000000000000000000111#32 = .command .detach := by decide

theorem test_decode_read :
    decodeWord .sym 0b00000000000000000000000000001000#32 = .command .read := by decide

theorem test_decode_pwmEnable :
    decodeWord .sym 0b00000000000000000000000010011001#32 = .command (.pwmEnable 9) := by decide

theorem test_decode_pwmDisable :
    decodeWord .sym 0b00000000000000000000000001101010#32 = .command (.pwmDisable 6) := by decide

theorem test_decode_pwmSetDuty :
    decodeWord .sym 0b00000000000000000000000011111011#32 = .command (.pwmSetDuty 15) := by decide

/-- R86 (a) to (d), one word each. -/
theorem test_decode_illegal :
    decodeWord .sym 0x00000000#32 = .illegal .reservedOp ∧
    decodeWord .sym 0x0000000C#32 = .illegal .reservedOp ∧
    decodeWord .sym 0x0000000F#32 = .illegal .reservedOp ∧
    decodeWord .sym 0x00000101#32 = .illegal .reservedBits ∧
    decodeWord .sym 0x00000013#32 = .illegal .channelNotZero ∧
    decodeWord .ctc 0x00000009#32 = .illegal .absentInCtc := by decide

/-- The lowest byte comes first (R65); three bytes are no word. -/
theorem test_decode_bytes :
    decodeBytes .sym [0x3B#8, 0#8, 0#8, 0#8, 0xAA#8] = (.command (.pwmSetDuty 3), [0xAA#8]) ∧
    decodeBytes .sym [0#8, 0#8, 0#8, 0x3B#8] = (.illegal .reservedBits, []) ∧
    (decodeBytes .sym [0x3B#8, 0#8, 0#8]).1 = .illegal .truncated := by decide

theorem test_decodeTableWord :
    decodeTableWord 32 0x00000001 = some .init ∧
    decodeTableWord 32 0x000000F9 = some (.pwmEnable 15) ∧
    decodeTableWord 8 0x1A = some (.pwmDisable 1) ∧
    decodeTableWord 32 0x0000000D = none := by decide

/-- 30_encoding.md R92: the words that the pseudo-instructions write. -/
theorem test_pseudo_words :
    encode .read = 0x00000008#32 ∧ encode (.pwmEnable 2) = 0x00000029#32 ∧
    encode (.pwmDisable 1) = 0x0000001A#32 ∧ encode (.pwmSetDuty 1) = 0x0000001B#32 := by decide

/-! ### The selector: vectors S1 to S3, V4, V5, V13, V14, V16, V19, V26, V33 -/

theorem test_select_ctc :
    select ctcPar 1000 = { cs := 1, top := 16000, inRange := true } ∧
    select ctcPar 10000 = { cs := 2, top := 20000, inRange := true } ∧
    select ctcPar 4095 = { cs := 1, top := 65520, inRange := true } ∧
    select ctcPar 4096 = { cs := 2, top := 8192, inRange := true } ∧
    select ctcPar 4194303 = { cs := 5, top := 65535, inRange := true } ∧
    select ctcPar 4194304 = { cs := 5, top := 65535, inRange := false } := by decide

theorem test_select_sym_and_rounding :
    select symPar 1000 = { cs := 1, top := 8000, inRange := true } ∧
    select symPar 65537 = { cs := 3, top := 8192, inRange := true } ∧
    select { ctcPar with fHz := 1500000 } 1 = { cs := 1, top := 2, inRange := true } ∧
    select { ctcPar with r := 8, table := table7 } 1000 =
      { cs := 4, top := 250, inRange := true } := by decide

/-! ### Commands: the examples of the rules -/

/-- R125, Example. -/
theorem test_init :
    (next? (exec .init { State.resetOf ctcPar with arg0 := 10000, arg1 := 0x55 })).map
      (fun t => (t.top, t.csSel, t.csHw, t.cb, t.ie, statusWord t)) =
      some (20000, 2, 0, 0x55, false, 0x20) := by decide

/-- S11: out of range, INIT is Ready all the same. -/
theorem test_init_clamps :
    (next? (exec .init { State.resetOf { ctcPar with r := 8, table := table7 } with
      arg0 := 20000 })).map (fun t => (t.top, t.csSel, t.tstate, t.cause)) =
      some (255, 7, .ready, .rangeViolation) := by decide

/-- R127, Example: the counter keeps its value. -/
theorem test_setPeriod :
    (next? (exec .setPeriod { at' .ctc .running with top := 16000, cnt := 5, arg0 := 10000 })).map
      (fun t => (t.top, t.csSel, t.csHw, t.cnt, t.fail)) = some (20000, 2, 2, 5, false) := by
  decide

/-- R130, Example: a CTC start completes at once. -/
theorem test_start :
    (next? (exec .start { at' .ctc .ready with csSel := 2, cb := 0x55, cnt := 9 })).map
      (fun t => (t.cnt, t.csHw, t.ie, t.busyOp, statusWord t)) =
      some (0, 2, true, .none, 0x30) := by decide

/-- R134: the guarded start, its issue and the tick that completes it. -/
theorem test_start_guard :
    (next? (exec .start { at' .sym .ready with cb := 7 })).map
      (fun t => (t.fresh, t.ie, statusWord t)) = some (true, false, 0x21) ∧
    (next? (exec .start { at' .sym .ready with cb := 7 })).map
      (fun t => ((tick t).cnt, (tick t).fresh, (tick t).pend, (tick t).ie, statusWord (tick t))) =
      some (1, false, false, true, 0x30) := by decide

/-- R137, Example. -/
theorem test_stop :
    (next? (exec .stop { at' .ctc .running with cnt := 1234 })).map
      (fun t => (t.csHw, t.csSel, t.cnt, statusWord t)) = some (0, 1, 1234, 0x40) := by decide

/-- R139, Example, and S5: from Ready it fails. -/
theorem test_resume :
    (next? (exec .resume { at' .ctc .stopped with cnt := 1234 })).map
      (fun t => (t.csHw, t.cnt, statusWord t)) = some (1, 1234, 0x30) ∧
    (next? (exec .resume (at' .ctc .ready))).map statusWord = some 0x26 := by decide

/-- R141, Example, and the handle 0. -/
theorem test_attach :
    (next? (exec .attach { at' .ctc .running with arg0 := 9 })).map
      (fun t => (t.cb, t.ie, t.fail)) = some (9, true, false) ∧
    (next? (exec .attach { at' .ctc .running with cb := 9 })).map
      (fun t => (t.cb, t.ie, statusWord t)) = some (9, false, 0x3E) := by decide

/-- R143, Example; while Stopped IE stays. -/
theorem test_detach :
    (next? (exec .detach { at' .ctc .running with cb := 9, ie := true, inflight := 9 })).map
      (fun t => (t.cb, t.ie, t.inflight)) = some (0, false, 9) ∧
    (next? (exec .detach { at' .ctc .stopped with cb := 9, ie := true })).map
      (fun t => (t.cb, t.ie)) = some (0, true) := by decide

/-- V44, V45, V47: CTC reads at ÷8. -/
theorem test_read_ctc :
    ([17, 10000, 65535].map fun c =>
      (next? (exec .read { at' .ctc .running with csSel := 2, csHw := 2, cnt := c })).map
        (fun t => t.data)) = [some 8, some 5000, some 32760] := by decide

/-- V52, V53, V57: SYM reads at 4000 up, 4000 down and 1 down. -/
theorem test_read_sym :
    ([(4000, Dir.up), (4000, .down), (1, .down)].map fun c =>
      (next? (exec .read { at' .sym .running with cnt := c.1, dir := c.2 })).map
        (fun t => (statusWord t, (tick t).data, statusWord (tick t)))) =
      [some (0x31, 250, 0x30), some (0x31, 750, 0x30), some (0x31, 999, 0x30)] := by decide

/-- R182: the compare value is computed against the TOP just written (SYM, 1000 µs: 8000). -/
theorem test_pwmEnable :
    (next? (exec (.pwmEnable 1) { at' .sym .ready with top := 5, arg0 := 16384, arg1 := 1000 })).map
      (fun t => (t.top, t.oce, t.cmp, t.fail)) =
      some (8000, [false, true], [0, 2000], false) := by decide

/-- R182: a duty out of range keeps the enable bit. -/
theorem test_pwmEnable_range :
    (next? (exec (.pwmEnable 0) { at' .sym .ready with arg0 := 65537 })).map
      (fun t => (t.oce, t.cmp, t.cause)) =
      some ([true, false], [0, 0], .rangeViolation) := by decide

/-- R184: legal before INIT; the compare value is kept. -/
theorem test_pwmDisable :
    (next? (exec (.pwmDisable 1) { State.resetOf symPar with
      oce := [true, true], cmp := [3, 4] })).map (fun t => (t.oce, t.cmp, t.fail)) =
      some ([true, false], [3, 4], false) := by decide

/-- R181, Example. -/
theorem test_pwmSetDuty :
    (next? (exec (.pwmSetDuty 1) { at' .sym .running with top := 20000, arg0 := 32768 })).map
      (fun t => (t.cmp, t.oce)) = some ([0, 10000], [false, false]) := by decide

/-! ### Ticks, bridge and window -/

/-- R211: above TOP the counter wraps with no event; at TOP it restarts with one. -/
theorem test_tick_ctc :
    countCtc 8 3 255 .up = { cnt := 0, dir := .up, event := false } ∧
    countCtc 8 3 3 .up = { cnt := 0, dir := .up, event := true } := by decide

/-- R212: the turn at TOP, the event at 0, and the turn above a lowered TOP. -/
theorem test_tick_sym :
    countSym 3 2 .up = { cnt := 3, dir := .down, event := false } ∧
    countSym 3 1 .down = { cnt := 0, dir := .up, event := true } ∧
    countSym 5 10 .up = { cnt := 9, dir := .down, event := false } ∧
    countSym 0 0 .up = { cnt := 0, dir := .up, event := true } := by decide

/-- R220, R221: an event latched with no callback is dropped; an event in flight keeps its handle. -/
theorem test_bridge :
    (next? (step { at' .ctc .running with pend := true, ie := true, sched := [.latch] })).map
      (fun t => (t.pend, t.inflight)) = some (false, 0) ∧
    (next? (step { at' .ctc .running with cb := 0, inflight := 7, sched := [.invoke] })).map
      (fun t => (t.inflight, t.active, t.trace)) = some (0, true, [.callback 7]) := by decide

/-- R61 to R63 and R68: the accesses that the host has not. -/
theorem test_access_faults :
    ([HostOp.read 0x101 2, .read 0x180 4, .read 0x102 4, .read 0x12C 4, .read 0x148 4].map fun op =>
      fault? (step { State.resetOf symPar with prog := [op], sched := [.host] })) =
      [some .accessWidth, some .outsideWindow, some .misaligned, some .unmapped, some .unmapped] ∧
    fault? (step { at' .sym .running with
      busyOp := .readProbe, prog := [.write 0x104 4 1], sched := [.host] }) =
      some .writeWhileBusy := by decide

/-- R49: CTRL of a running SYM instance, ÷8, R = 16, two channels, five ratios. -/
theorem test_ctrl_word :
    ctrlWord { at' .sym .running with csSel := 2, csHw := 2, ie := true } =
      0x00014B52#32 := by decide

/-- The word that `withFetchWord` places is run by the very next step after reset. -/
theorem test_fetch_after_reset :
    (next? (step (State.reset.withFetchWord 32 0x00000004))).map (fun t => t.tstate) =
      some .stopped ∧
    (next? (step (State.reset.withFetchWord 32 0x00000008))).map (fun t => (t.fail, t.cause)) =
      some (true, .stateViolation) := by decide

/-! ### Witnesses: for each obligation with hypotheses, a case that meets them

Where an obligation has several clauses there is a case for each, at a boundary of its range. -/

theorem witness_DecodeEncodeRoundTrip :
    (Instr.pwmEnable 15).wf .sym = true ∧ (Instr.pwmSetDuty 0).wf .sym = true ∧
    Instr.read.wf .ctc = true := by decide

theorem witness_EncodeDecodeRoundTrip :
    decodeWord .sym 0x000000FB#32 = .command (.pwmSetDuty 15) ∧
    decodeWord .ctc 0x00000008#32 = .command .read := by decide

/-- The channel number NCH itself is the least unrecognised one. -/
theorem witness_IllegalWordsFailAlone :
    (∃ (s : State) (w : Word) (why : DecodeError) (rest : List HostOp) (ts : List Turn),
      paramsOk s.par = true ∧ s.busyOp = .none ∧ s.sched = .host :: ts ∧
      s.prog = .write s.par.base 4 w :: rest ∧ decodeWord s.par.mode w = .illegal why) ∧
    (∃ s : State, s.par.mode = .sym ∧ s.par.nch ≤ 2 ∧ s.tstate = .ready ∧
      decodeWord s.par.mode 0x29#32 = .command (.pwmEnable 2) ∧
      decodeWord s.par.mode 0x2A#32 = .command (.pwmDisable 2) ∧
      decodeWord s.par.mode 0x2B#32 = .command (.pwmSetDuty 2)) :=
  ⟨⟨{ at' .ctc .ready with prog := [.write 0x100 4 0x19], sched := [.host] }, 0x19, .absentInCtc,
      [], [], by decide⟩, ⟨at' .sym .ready, by decide⟩⟩

theorem witness_StepRunsDecodedCommand :
    (∃ (s : State) (w : Word) (i : Instr) (rest : List HostOp) (ts : List Turn),
      paramsOk s.par = true ∧ s.busyOp = .none ∧ s.sched = .host :: ts ∧
      s.prog = .write s.par.base 4 w :: rest ∧ decodeWord s.par.mode w = .command i) ∧
    (∃ (s : State) (w : Nat) (i : Instr), paramsOk s.par = true ∧
      decodeWord s.par.mode (BitVec.ofNat 32 w) = .command i) :=
  ⟨⟨{ at' .sym .ready with prog := [.write 0x100 4 0x3, .poll], sched := [.host, .counter] }, 0x3,
      .start, [.poll], [.counter], by decide⟩, ⟨State.reset, 0xFB, .pwmSetDuty 15, by decide⟩⟩

theorem witness_ResetMeetsInvariant : paramsOk { ctcPar with r := 8 } = true := by decide

theorem witness_ResetIsQuiet : paramsOk { symPar with nch := 15 } = true := by decide

/-- A running SYM instance in the middle of a READ probe meets the invariant, and its tick is a
step. -/
def probing : State :=
  { at' .sym .running with
    cnt := 8000, dir := .down, v1 := 7999, busyOp := .readProbe, cb := 7, sched := [.counter] }

theorem probing_inv : Inv probing := by constructor <;> decide

theorem witness_StepKeepsInvariant : ∃ s t, Inv s ∧ step s = .next t := by
  obtain ⟨t, h, -⟩ := exists_next (o := step probing) (p := fun _ => true) (by decide)
  exact ⟨probing, t, probing_inv, h⟩

theorem witness_StepExistsWhenEnabled :
    (paramsOk probing.par = true ∧ probing.sched = [.counter]) ∧
    (paramsOk State.reset.par = true ∧ State.reset.sched = []) := by decide

/-- The greatest period in range and the least out of range (V13, V14). -/
theorem witness_SelectRangeAndLeastness :
    paramsOk ctcPar = true ∧ (select ctcPar 4194303).inRange = true ∧
    (select ctcPar 4194304).inRange = false := by decide

theorem witness_SelectClampsOutOfRange :
    ∃ s : State, paramsOk s.par = true ∧
      ∀ c, 1 ≤ c → c ≤ nCodes s.par → 2 ^ s.par.r ≤ cycles s.par s.arg0.toNat / ratio s.par c := by
  refine ⟨{ at' .ctc .running with arg0 := 4194304 }, by decide, fun c h1 h2 => ?_⟩
  have h2 : c ≤ 5 := h2
  interval_cases c <;> decide

theorem witness_StepwiseDivisionAgrees :
    paramsOk symPar = true ∧ (1 : Nat) < nCodes symPar ∧ 4 < nCodes symPar := by decide

/-- The period zero, and one of 1 µs at 499,999 Hz that is just below the bound. -/
theorem witness_PeriodZeroSelectsMinimum :
    paramsOk symPar = true ∧ paramsOk { ctcPar with fHz := 499999 } = true ∧
    499999 * 1 < modeDivisor .ctc * 500000 := by decide

theorem witness_CodeBoundaries :
    paramsOk ctcPar = true ∧ 1 ≤ nCodes ctcPar ∧ 1 < nCodes ctcPar ∧ nCodes ctcPar = 5 := by decide

theorem witness_InitCommand :
    (State.resetOf ctcPar).tstate = .uninitialized ∧ (at' .ctc .ready).tstate ≠ .uninitialized := by
  decide

theorem witness_StartCommand :
    (∃ s : State, (s.tstate = .ready ∨ s.tstate = .stopped) ∧
      s.par.mode = .sym ∧ s.cb ≠ 0 ∧ s.csSel ≠ 0) ∧
    (∃ s : State, (s.tstate = .ready ∨ s.tstate = .stopped) ∧
      ¬(s.par.mode = .sym ∧ s.cb ≠ 0 ∧ s.csSel ≠ 0)) ∧
    (∃ s : State, ¬(s.tstate = .ready ∨ s.tstate = .stopped)) ∧
    (∃ s : State, s.busyOp = .startGuard) :=
  ⟨⟨{ at' .sym .ready with cb := 1 }, by decide⟩, ⟨at' .sym .stopped, by decide⟩,
    ⟨at' .sym .running, by decide⟩, ⟨{ at' .sym .ready with busyOp := .startGuard }, rfl⟩⟩

theorem witness_StopCommand : ∃ s t, exec .stop s = .next t := ⟨State.reset, _, rfl⟩

theorem witness_ResumeCommand :
    (at' .ctc .stopped).tstate = .stopped ∧ (at' .ctc .running).tstate ≠ .stopped := by decide

theorem witness_AttachCommand :
    (∃ s : State, s.arg0 ≠ 0) ∧ (∃ s : State, s.arg0 = 0) :=
  ⟨⟨{ at' .ctc .running with arg0 := 1 }, by decide⟩, ⟨at' .ctc .running, rfl⟩⟩

/-- The conversion at the greatest code (÷1024, k = 10) and with no clock selected (k = 0). -/
theorem witness_ReadCommand :
    (∃ s : State, (s.tstate = .running ∨ s.tstate = .stopped) ∧ (s.par.mode = .ctc ∨ s.csHw = 0) ∧
      if s.csSel = 0 then 10 = 0 else s.par.table[s.csSel - 1]? = some (2 ^ 10)) ∧
    (∃ s : State, (s.tstate = .running ∨ s.tstate = .stopped) ∧ (s.par.mode = .ctc ∨ s.csHw = 0) ∧
      s.csSel = 0 ∧ if s.csSel = 0 then 0 = 0 else s.par.table[s.csSel - 1]? = some (2 ^ 0)) ∧
    (∃ s : State, (s.tstate = .running ∨ s.tstate = .stopped) ∧
      (s.par.mode = .sym ∧ s.csHw ≠ 0)) ∧
    (∃ s : State, ¬(s.tstate = .running ∨ s.tstate = .stopped)) ∧
    (∃ s : State, s.busyOp = .readProbe ∧
      if s.csSel = 0 then 3 = 0 else s.par.table[s.csSel - 1]? = some (2 ^ 3)) :=
  ⟨⟨{ at' .ctc .running with csSel := 5, csHw := 5 }, by decide⟩,
    ⟨{ at' .sym .stopped with csSel := 0 }, by decide⟩, ⟨at' .sym .running, by decide⟩,
    ⟨at' .sym .ready, by decide⟩, ⟨{ probing with csSel := 2, csHw := 2 }, by decide⟩⟩

/-- The greatest channel of the instance and the least beyond it, in a legal and an illegal state. -/
theorem witness_PwmEnableCommand :
    symPar.mode = .sym ∧ 1 < symPar.nch ∧ symPar.nch ≤ 2 ∧ (9 + 16 * 15 : Nat) < 2 ^ 8 ∧
    (at' .sym .running).tstate = .running ∧ (State.resetOf symPar).tstate = .uninitialized := by
  decide

theorem witness_PwmDisableCommand :
    (at' .sym .ready).par.mode = .sym ∧ 1 < (at' .sym .ready).par.nch ∧
    (at' .sym .ready).par.nch ≤ 2 := by decide

/-- The greatest duty in range and the least beyond it. -/
theorem witness_PwmSetDutyCommand :
    (∃ s : State, s.par.mode = .sym ∧ s.tstate = .ready ∧ 1 < s.par.nch ∧
      s.arg0.toNat ≤ 2 ^ s.par.r) ∧
    (∃ s : State, s.par.mode = .sym ∧ s.tstate = .running ∧ 1 < s.par.nch ∧
      2 ^ s.par.r < s.arg0.toNat) ∧
    (∃ s : State, s.par.mode = .sym ∧ s.tstate = .stopped ∧ s.par.nch ≤ 2) ∧
    (∃ s : State, s.par.mode = .sym ∧
      ¬(s.tstate = .ready ∨ s.tstate = .running ∨ s.tstate = .stopped)) :=
  ⟨⟨{ at' .sym .ready with arg0 := 65536 }, by decide⟩,
    ⟨{ at' .sym .running with arg0 := 65537 }, by decide⟩, ⟨at' .sym .stopped, by decide⟩,
    ⟨State.reset, by decide⟩⟩

theorem witness_DutyMappingProperties :
    (65535 : Nat) ≤ 65536 ∧ dutyInRange symPar 65536 = true ∧ dutyInRange symPar 65537 = false := by
  decide

theorem witness_IllegalStateMutatesNothing :
    ∃ (s : State) (i : Instr), i.existsIn s.par.mode = true ∧ legalIn i s.tstate = false :=
  ⟨State.reset, .pwmSetDuty 15, by decide⟩

theorem witness_TransitionTable :
    ∃ (s t : State) (i : Instr), s.busyOp = .none ∧ exec i s = .next t ∧
      i.existsIn s.par.mode = true ∧ legalIn i s.tstate = true ∧ t.busyOp ≠ .none :=
  ⟨at' .sym .running, _, .read, rfl, rfl, rfl, rfl, by decide⟩

theorem witness_EveryCommandAnswers :
    (at' .ctc .ready).par.mode = .ctc ∧ (Instr.pwmEnable 0).isPwm = true := by decide

theorem witness_UninitializedNeverReentered :
    ∃ s t : State, step s = .next t ∧ s.tstate ≠ .uninitialized := by
  obtain ⟨t, h, -⟩ := exists_next (o := step probing) (p := fun _ => true) (by decide)
  exact ⟨probing, t, h, by decide⟩

/-- A running instance whose host changes the period: TOP, CS_SEL and CS_HW all change. -/
theorem witness_SelectionWrittenTogether :
    ∃ s t : State, step s = .next t ∧ t.top ≠ s.top ∧ t.csSel ≠ s.csSel ∧ t.tstate = .running := by
  obtain ⟨t, h, hp⟩ := exists_next
    (o := step { at' .ctc .running with
      arg0 := 10000, prog := [.write 0x100 4 0x2], sched := [.host] })
    (p := fun t => decide (t.top ≠ 8000 ∧ t.csSel ≠ 1 ∧ t.tstate = .running)) (by decide)
  exact ⟨_, t, h, of_decide_eq_true hp⟩

theorem witness_InterruptEnableAgreement :
    (∃ s t : State, Inv s ∧ step s = .next t ∧ s.tstate = .running ∧ t.tstate = .running ∧
      s.ie = decide (s.cb ≠ 0)) ∧
    (∃ s t : State, s.tstate = .ready ∧ s.busyOp = .none ∧ exec .start s = .next t ∧
      t.busyOp = .none) ∧
    (∃ s t : State, s.tstate = .stopped ∧ s.busyOp = .none ∧ exec .start s = .next t ∧
      t.busyOp ≠ .none) := by
  refine ⟨?_, ⟨at' .ctc .ready, _, rfl, rfl, rfl, rfl⟩,
    ⟨{ at' .sym .stopped with cb := 7 }, _, rfl, rfl, rfl, by decide⟩⟩
  obtain ⟨t, h, hp⟩ := exists_next
    (o := step { at' .ctc .running with
      arg0 := 9, prog := [.write 0x100 4 0x6], sched := [.host] })
    (p := fun t => decide (t.tstate = .running)) (by decide)
  exact ⟨_, t, by constructor <;> decide, h, rfl, of_decide_eq_true hp, by decide⟩

theorem witness_CounterTurnTicks :
    paramsOk symPar = true ∧ (at' .sym .running).csHw ≠ 0 ∧ (at' .sym .stopped).csHw = 0 := by
  decide

/-- At TOP, below it, at the start of a period, and just above TOP and at MAXTOP. -/
theorem witness_CtcCounterCounts :
    (at' .ctc .running).par.mode = .ctc ∧ (at' .ctc .running).busyOp = .none ∧
    (at' .ctc .running).top ≤ maxTop ctcPar ∧ (at' .ctc .running).cnt = 0 ∧
    (at' .ctc .running).top < 8001 ∧ 8001 ≤ maxTop ctcPar ∧ maxTop ctcPar = 65535 := by decide

/-- One state for each clause: first, with a command waiting or a draw asked, TOP = 0, the turn at TOP,
arriving at 0, and falling from just above it; then TOP = 0, rising, arriving at 0, falling, and the
whole period. -/
theorem witness_SymCounterCounts :
    ((∃ s : State, s.par.mode = .sym ∧ s.dir = .up ∧ s.busyOp = .readProbe ∧ s.top = 0) ∧
      (∃ s : State, s.par.mode = .sym ∧ s.dir = .up ∧ drawAsked s = true ∧ s.top ≠ 0 ∧
        s.cnt + 1 = s.top) ∧
      (∃ s : State, s.par.mode = .sym ∧ (s.dir = .down → 1 ≤ s.cnt) ∧ s.dir = .down ∧
        s.busyOp = .readProbe ∧ s.top ≠ 0 ∧ s.cnt = 1) ∧
      (∃ s : State, s.par.mode = .sym ∧ s.dir = .up ∧ s.busyOp = .readProbe ∧ s.top = 2 ∧
        s.top ≤ s.cnt ∧ s.cnt ≠ 1)) ∧
    (∃ s : State, s.par.mode = .sym ∧ s.busyOp = .none ∧ s.fresh = false ∧ s.top = 0) ∧
    (∃ s : State, s.par.mode = .sym ∧ s.busyOp = .none ∧ s.ie = false ∧ s.top ≠ 0 ∧ s.dir = .up ∧
      s.cnt + 1 = s.top) ∧
    (∃ s : State, s.par.mode = .sym ∧ s.busyOp = .none ∧ s.fresh = false ∧ s.top ≠ 0 ∧
      s.dir = .down ∧ s.cnt = 1) ∧
    (∃ s : State, s.par.mode = .sym ∧ s.busyOp = .none ∧ s.fresh = false ∧ s.top ≠ 0 ∧
      s.dir = .up ∧ s.top ≤ s.cnt ∧ 2 ≤ s.cnt) ∧
    (∃ s : State, s.par.mode = .sym ∧ s.busyOp = .none ∧ s.fresh = false ∧ s.top = 1 ∧
      s.cnt = 0 ∧ s.dir = .up) :=
  ⟨⟨⟨{ probing with top := 0, cnt := 0, dir := .up }, by decide⟩,
      ⟨{ at' .sym .running with cnt := 7999, fresh := true, ie := true }, by decide⟩,
      ⟨{ probing with cnt := 1 }, by decide⟩,
      ⟨{ probing with top := 2, cnt := 2, dir := .up }, by decide⟩⟩,
    ⟨{ at' .sym .running with top := 0 }, by decide⟩,
    ⟨{ at' .sym .running with cnt := 7999, fresh := true }, by decide⟩,
    ⟨{ at' .sym .running with cnt := 1, dir := .down }, by decide⟩,
    ⟨{ at' .sym .running with cnt := 9000 }, by decide⟩,
    ⟨{ at' .sym .running with top := 1 }, by decide⟩⟩

theorem witness_PendingAfterTick :
    (count { at' .ctc .running with cnt := 8000 }).event = true ∧
    (∃ s : State, ¬(s.par.mode = .sym ∧ s.fresh = true ∧ s.ie = true)) ∧
    (∃ s : State, s.par.mode = .sym ∧ s.fresh = true ∧ s.ie = true) :=
  ⟨by decide, ⟨at' .ctc .running, by decide⟩,
    ⟨{ at' .sym .running with fresh := true, ie := true }, by decide⟩⟩

theorem witness_StartSuppressesSpuriousEvent :
    ∃ s t : State, s.tstate = .ready ∧ exec .start s = .next t ∧ t.csHw ≠ 0 ∧ t.fresh = true :=
  ⟨{ at' .sym .ready with cb := 7 }, _, rfl, rfl, by decide, rfl⟩

theorem witness_LatchStep :
    (∃ s : State, paramsOk s.par = true ∧ s.sched = [.latch] ∧ s.pend = true ∧ s.ie = true ∧
      s.busyOp = .none ∧ s.inflight = 0 ∧ s.cb ≠ 0) ∧
    (∃ s : State, paramsOk s.par = true ∧ s.sched = [.latch] ∧ s.pend = true ∧ s.ie = true ∧
      s.busyOp = .none ∧ s.inflight ≠ 0) :=
  ⟨⟨{ at' .ctc .running with cb := 7, pend := true, ie := true, sched := [.latch] }, by decide⟩,
    ⟨{ at' .ctc .running with inflight := 7, pend := true, ie := true, sched := [.latch] },
      by decide⟩⟩

theorem witness_InvokeStep :
    (∃ s : State, paramsOk s.par = true ∧ s.sched = [.invoke] ∧ s.inflight ≠ 0 ∧
      s.active = false ∧ s.busyOp = .none) ∧
    (∃ s : State, paramsOk s.par = true ∧ s.sched = [.invoke] ∧ s.inflight ≠ 0 ∧
      s.active = true) :=
  ⟨⟨{ at' .ctc .running with inflight := 7, sched := [.invoke] }, by decide⟩,
    ⟨{ at' .ctc .running with inflight := 7, active := true, sched := [.invoke] }, by decide⟩⟩

theorem witness_CallbackReturnStep :
    (∃ s : State, paramsOk s.par = true ∧ s.sched = [.callbackReturn] ∧ s.active = true ∧
      s.busyOp = .none) ∧
    (∃ s : State, paramsOk s.par = true ∧ s.sched = [.callbackReturn] ∧ s.active = false) :=
  ⟨⟨{ at' .ctc .running with active := true, sched := [.callbackReturn] }, by decide⟩,
    ⟨{ at' .ctc .running with sched := [.callbackReturn] }, by decide⟩⟩

/-- A tick that ends a READ probe with an event pending. -/
theorem witness_BridgeMaskedWhileBusy :
    ∃ s t : State, step s = .next t ∧ s.busyOp ≠ .none ∧ s.pend = true := by
  obtain ⟨t, h, -⟩ := exists_next (o := step { probing with pend := true })
    (p := fun _ => true) (by decide)
  exact ⟨_, t, h, by decide, rfl⟩

theorem witness_CallbacksNeverNest :
    ∃ s t : State, step s = .next t ∧ s.active = true := by
  obtain ⟨t, h, -⟩ := exists_next
    (o := step { at' .ctc .running with active := true, sched := [.callbackReturn] })
    (p := fun _ => true) (by decide)
  exact ⟨_, t, h, rfl⟩

/-- An event in flight is kept by a DETACH and delivered by the invoke step after it. -/
theorem witness_InflightEventDelivered :
    (∃ s t : State, step s = .next t ∧ s.inflight ≠ 0 ∧ t.inflight = 7 ∧ t.cb = 0) ∧
    (∃ s t : State, step s = .next t ∧ s.inflight ≠ 0 ∧ t.inflight = 0) := by
  obtain ⟨t, h, hp⟩ := exists_next
    (o := step { at' .ctc .running with
      cb := 7, inflight := 7, prog := [.write 0x100 4 0x7], sched := [.host] })
    (p := fun t => decide (t.inflight = 7 ∧ t.cb = 0)) (by decide)
  obtain ⟨u, h', hq⟩ := exists_next
    (o := step { at' .ctc .running with inflight := 7, sched := [.invoke] })
    (p := fun t => decide (t.inflight = 0)) (by decide)
  exact ⟨⟨_, t, h, by decide, of_decide_eq_true hp⟩, ⟨_, u, h', by decide, of_decide_eq_true hq⟩⟩

theorem witness_PendingClearedByLatchOnly :
    ∃ s t : State, step s = .next t ∧ s.pend = true ∧ t.pend = false := by
  obtain ⟨t, h, hp⟩ := exists_next
    (o := step { at' .ctc .running with pend := true, ie := true, sched := [.latch] })
    (p := fun t => decide (t.pend = false)) (by decide)
  exact ⟨_, t, h, rfl, of_decide_eq_true hp⟩

/-- An access for each clause, at the boundaries of its range: the window of `symPar` is 0x100 to
0x17F, and its channels end at 0x147. -/
theorem witness_InadmissibleAccessesAreStuck :
    paramsOk symPar = true ∧ (2 : Nat) ≠ 4 ∧ 0xFF < symPar.base ∧ symPar.base + 128 ≤ 0x180 ∧
    (127 < 128 ∧ 127 % 4 ≠ 0) ∧ (0x2C % 4 = 0 ∧ 0x3C < 0x40) ∧
    (0x48 % 4 = 0 ∧ 0x40 + 4 * symPar.nch ≤ 0x48) ∧ 1 < symPar.nch ∧
    probing.busyOp ≠ .none := by decide

theorem witness_WindowAccessEffects :
    paramsOk symPar = true ∧ (at' .sym .running).busyOp = .none ∧
    decodeWord .sym 0x3#32 = .command .start ∧ Reg.cmp 1 ≠ .cmd ∧ Reg.cmp 1 ≠ .arg0 ∧
    Reg.cmp 1 ≠ .arg1 ∧ 1 < symPar.nch ∧ regAddr symPar (.cmp 1) = 0x144 := by decide

theorem witness_PollRepeatsWhileBusy :
    paramsOk probing.par = true ∧
    (∃ s : State, paramsOk s.par = true ∧ s.sched = [.host] ∧ s.prog = [.poll] ∧
      s.busyOp ≠ .none) :=
  ⟨by decide, ⟨{ probing with prog := [.poll], sched := [.host] }, by decide⟩⟩

theorem witness_RegisterMapOffsets :
    paramsOk { symPar with nch := 15 } = true ∧
    regAt { symPar with nch := 15 } 0x78 = some (.cmp 14) ∧
    regAt { symPar with nch := 15 } 0x7C = none := by decide

theorem witness_ControlAndChannelWords : Inv probing ∧ 1 < probing.par.nch :=
  ⟨probing_inv, by decide⟩

/-- The tick that ends a probe, and a READ of the host in a CTC instance (8000 ticks: 500 µs). -/
theorem witness_DataHoldsElapsedExactly :
    (∃ s t : State, Inv s ∧ step s = .next t ∧ t.data ≠ s.data ∧ s.busyOp = .readProbe) ∧
    (∃ s t : State, Inv s ∧ step s = .next t ∧ t.data ≠ s.data ∧ t.data = 500) := by
  obtain ⟨t, h, hp⟩ := exists_next (o := step probing) (p := fun t => decide (t.data ≠ 0))
    (by decide)
  obtain ⟨u, h', hq⟩ := exists_next
    (o := step { at' .ctc .running with
      cnt := 8000, prog := [.write 0x100 4 0x8], sched := [.host] })
    (p := fun t => decide (t.data ≠ 0 ∧ t.data = 500)) (by decide)
  exact ⟨⟨probing, t, probing_inv, h, of_decide_eq_true hp, rfl⟩,
    ⟨_, u, by constructor <;> decide, h', of_decide_eq_true hq⟩⟩

/-- The last tick of the shortest period, TOP = 1. -/
theorem witness_SymReadMeasuresTicks :
    ∃ s : State, Inv s ∧ s.par.mode = .sym ∧ s.tstate = .running ∧ s.busyOp = .none ∧
      s.csHw ≠ 0 ∧ s.cnt = 0 ∧ s.dir = .up ∧ 1 ≤ s.top ∧ s.fresh = false ∧ 1 < 2 * s.top ∧
      s.par.table[s.csSel - 1]? = some (2 ^ 0) :=
  ⟨{ at' .sym .running with top := 1 }, by constructor <;> decide, by decide⟩

/-- A period of 1000 µs at 16 MHz: the counter runs to 16000. -/
theorem witness_CtcReadStaysWithinPeriod :
    ∃ s : State, Inv s ∧ s.par.mode = .ctc ∧ s.tstate = .running ∧ s.busyOp = .none ∧ s.cnt = 0 ∧
      s.par.fHz % 1000 = 0 ∧ 500000 < s.par.fHz ∧ (select s.par 1000).inRange = true ∧
      s.top = (select s.par 1000).top ∧ s.csSel = (select s.par 1000).cs ∧ 16000 ≤ s.top :=
  ⟨{ at' .ctc .running with top := 16000 }, by constructor <;> decide, by decide⟩

theorem witness_SymConversionWithinPeriod :
    (if (5 : Nat) = 0 then 10 = 0 else symPar.table[5 - 1]? = some (2 ^ 10)) ∧
    paramsOk symPar = true ∧ symPar.mode = .sym ∧ symPar.fHz % 1000 = 0 ∧ 1000000 < symPar.fHz ∧
    (select symPar 1000).inRange = true ∧ 15999 < 2 * (select symPar 1000).top := by decide

theorem witness_WaitEndsAtNextTick :
    Inv probing ∧ probing.busyOp = .readProbe ∧ probing.sched = [.counter] ∧
    (∃ s : State, Inv s ∧ s.busyOp = .startGuard ∧ s.sched = [.counter]) :=
  ⟨probing_inv, rfl, rfl,
    ⟨{ at' .sym .ready with
        csHw := 1, cb := 7, fresh := true, busyOp := .startGuard, sched := [.counter] },
      by constructor <;> decide, rfl, rfl⟩⟩

/-- The host reads STATUS during a wait. -/
theorem witness_WaitHeldBetweenTicks :
    ∃ s t : State, step s = .next t ∧ s.busyOp ≠ .none ∧ nextTurn s ≠ some .counter := by
  obtain ⟨t, h, -⟩ := exists_next
    (o := step { probing with prog := [.read 0x10C 4], sched := [.host] })
    (p := fun _ => true) (by decide)
  exact ⟨_, t, h, by decide, by decide⟩

/-! ### Two fair executions -/

/-- The run of the machine from a state, as long as each step answers a next state. -/
def runFrom (s : State) : Nat → State
  | 0 => s
  | k + 1 => after (runFrom s k)

/-- A state with an empty schedule in which no agent has a step stands still. -/
theorem idle_step {s : State} (hp : paramsOk s.par = true) (hs : s.sched = [])
    (he : enabledTurns s = []) : step s = .next s := by
  simp [step, hp, agentStep, nextTurn, hs, freeTurn, he]

/-- A run that stands still after `n` steps is fair: no agent has a step in the end. -/
theorem fair_of_idle {s : State} {n : Nat}
    (hrun : ∀ k, k < n → step (runFrom s k) = .next (runFrom s (k + 1)))
    (hp : paramsOk (runFrom s n).par = true) (hs : (runFrom s n).sched = [])
    (he : enabledTurns (runFrom s n) = []) : FairExecution (runFrom s) := by
  have hi := idle_step hp hs he
  have hstill : ∀ k, runFrom s (n + k) = runFrom s n := by
    intro k
    induction k with
    | zero => rfl
    | succ k ih => rw [← Nat.add_assoc, runFrom, ih, after, hi]; rfl
  have hex : Execution (runFrom s) := by
    intro k
    rcases Nat.lt_or_ge k n with h | h
    · exact hrun k h
    · obtain ⟨m, rfl⟩ := Nat.exists_eq_add_of_le h
      rw [Nat.add_assoc, hstill, hstill, hi]
  have hfair : ∀ t, WeaklyFair t (runFrom s) := by
    intro t k hk
    have hen := hk (n + k) (by omega)
    rw [hstill] at hen
    have : t ∈ enabledTurns (runFrom s n) := by
      rw [enabledTurns, List.mem_filter]
      exact ⟨by cases t <;> simp, hen⟩
    rw [he] at this
    cases this
  exact ⟨hex, hfair _, hfair _, hfair _, hfair _⟩

/-- A READ probe, the tick that ends it, and a STOP: then no agent has a step. -/
def waitRun : State :=
  { at' .sym .running with
    busyOp := .readProbe, prog := [.write 0x100 4 0x4], sched := [.counter, .host] }

theorem witness_FairRunsCompleteWaits :
    ∃ σ : Nat → State, FairExecution σ ∧ Inv (σ 0) ∧ (σ 0).busyOp ≠ .none := by
  refine ⟨runFrom waitRun, fair_of_idle (n := 2) ?_ (by decide) (by decide) (by decide), ?_,
    by decide⟩
  · intro k hk
    interval_cases k <;> rfl
  · constructor <;> decide

/-- A stopped timer with an event pending, which is latched, invoked and returned from. -/
def deliverRun : State :=
  { at' .ctc .stopped with
    cb := 7, ie := true, pend := true, sched := [.latch, .invoke, .callbackReturn] }

theorem witness_FairRunsDeliverPendingEvents :
    ∃ σ : Nat → State, FairExecution σ ∧
      (∀ j, 0 ≤ j → (σ j).busyOp = .none ∧ (σ j).ie = true ∧ (σ j).cb ≠ 0) ∧
      (σ 0).pend = true := by
  refine ⟨runFrom deliverRun, fair_of_idle (n := 3) ?_ (by decide) (by decide) (by decide),
    fun j _ => ?_, rfl⟩
  · intro k hk
    interval_cases k <;> rfl
  · have hend : ∀ k, runFrom deliverRun (3 + k) = runFrom deliverRun 3 := by
      intro k
      induction k with
      | zero => rfl
      | succ k ih =>
        rw [← Nat.add_assoc, runFrom, ih, after, idle_step (by decide) (by decide) (by decide)]
        rfl
    rcases Nat.lt_or_ge j 3 with h | h
    · interval_cases j <;> decide
    · obtain ⟨k, rfl⟩ := Nat.exists_eq_add_of_le h
      rw [hend]
      decide

end Sys2Proof.Tests
end

section
/-! PROOFS. The reset state (R51, R240). -/

namespace Sys2Proof.Proofs

open Sys2Proof Sys2Proof.Machine

@[simp] theorem oceAt_resetOf (p : Params) (ch : Nat) : oceAt (State.resetOf p) ch = false :=
  List.getElem?_getD_replicate_default_eq false p.nch ch

@[simp] theorem cmpAt_resetOf (p : Params) (ch : Nat) : cmpAt (State.resetOf p) ch = 0 :=
  List.getElem?_getD_replicate_default_eq 0 p.nch ch

@[simp] theorem length_oce_resetOf (p : Params) : (State.resetOf p).oce.length = p.nch :=
  List.length_replicate

@[simp] theorem length_cmp_resetOf (p : Params) : (State.resetOf p).cmp.length = p.nch :=
  List.length_replicate

@[simp] theorem busy_resetOf (p : Params) : busy (State.resetOf p) = false := rfl

/-- Every status field of R47 is 0 at reset, Uninitialized being code 0 (R32). -/
@[simp] theorem statusWord_resetOf (p : Params) : statusWord (State.resetOf p) = 0 := rfl

/-- Settles O6: the scalar fields are read off `State.resetOf`; the channel lists and the derived
`busy` and `statusWord` go through their lemmas. -/
theorem resetValues : Obligations.ResetValues := by
  intro p
  have channels : ∀ ch, ch < p.nch →
      oceAt (State.resetOf p) ch = false ∧ cmpAt (State.resetOf p) ch = 0 :=
    fun ch _ => ⟨oceAt_resetOf p ch, cmpAt_resetOf p ch⟩
  exact ⟨rfl, rfl, rfl, rfl, rfl, rfl, rfl, rfl, rfl, rfl, rfl, rfl, rfl,
    length_oce_resetOf p, length_cmp_resetOf p, channels,
    rfl, rfl, rfl, busy_resetOf p, rfl, rfl, statusWord_resetOf p, rfl, rfl⟩

end Sys2Proof.Proofs
end

section
/-! PROOFS. The accesses of the register window at `step` (R67, R68). -/

namespace Sys2Proof.Proofs

open Sys2Proof Sys2Proof.Machine

/-! ### The effects of an admitted access -/

/-- No register of the window shows the schedule. -/
theorem readReg_sched (s : State) (ts : List Turn) (reg : Reg) :
    readReg { s with sched := ts } reg = readReg s reg := by
  cases reg <;> rfl

theorem issue_of_command {s : State} {w : Word} {i : Instr}
    (h : decodeWord s.par.mode w = .command i) : issue w s = exec i s := by
  simp [issue, h]

/-- Every register but CMD, ARG0 and ARG1 is read-only (R49, R67). -/
theorem writeReg_readOnly {reg : Reg} (hcmd : reg ≠ .cmd) (harg0 : reg ≠ .arg0)
    (harg1 : reg ≠ .arg1) (v : Word) (s : State) : writeReg v s reg = .next s := by
  cases reg
  case cmd => exact absurd rfl hcmd
  case arg0 => exact absurd rfl harg0
  case arg1 => exact absurd rfl harg1
  all_goals rfl

/-! ### The step of a scheduled host access -/

section
variable {s : State} {rest : List HostOp} {ts : List Turn}

theorem step_of_host {op : HostOp} (hp : paramsOk s.par = true) (hs : s.sched = .host :: ts)
    (hprog : s.prog = op :: rest) : step s = hostAccess op rest { s with sched := ts } := by
  simp [step_of_sched hp hs, takeTurn, hostStep, hprog]

theorem step_of_write {reg : Reg} {v : Word} (hp : paramsOk s.par = true)
    (hs : s.sched = .host :: ts) (hreg : ∀ ch, reg = .cmp ch → ch < s.par.nch)
    (hidle : s.busyOp = .none) (hprog : s.prog = .write (regAddr s.par reg) 4 v :: rest) :
    step s = writeReg v { s with sched := ts, prog := rest } reg := by
  have hbusy : busy { s with sched := ts } = false := (busy_eq_false_iff _).2 hidle
  simp [step_of_host hp hs hprog, hostAccess, resolveAccess_regAddr hp hreg, hbusy]

/-- A read is admitted in a wait too: BUSY is no premise (R68). -/
theorem step_of_read {reg : Reg} (hp : paramsOk s.par = true) (hs : s.sched = .host :: ts)
    (hreg : ∀ ch, reg = .cmp ch → ch < s.par.nch)
    (hprog : s.prog = .read (regAddr s.par reg) 4 :: rest) :
    step s = .next { s with
      sched := ts, prog := rest
      trace := s.trace ++ [.readData (regAddr s.par reg) (readReg s reg)] } := by
  simp [step_of_host hp hs hprog, hostAccess, resolveAccess_regAddr hp hreg, readReg_sched,
    State.emit]

end

/-- Settles O48: a write goes through `step_of_write` to the effect of `writeReg` at its register, a
read through `step_of_read`. -/
theorem windowAccessEffects : Obligations.WindowAccessEffects := by
  intro s rest ts v hp hs u
  refine ⟨fun hidle => ⟨?cmd, ?arg0, ?arg1, ?readOnly⟩, fun reg => step_of_read hp hs⟩
  case cmd =>
    intro i hprog hdec
    calc step s = issue v u := step_of_write hp hs (by simp) hidle hprog
      _ = exec i u := issue_of_command hdec
  case arg0 => exact step_of_write hp hs (by simp) hidle
  case arg1 => exact step_of_write hp hs (by simp) hidle
  case readOnly =>
    intro reg hcmd harg0 harg1 hreg hprog
    calc step s = writeReg v u reg := step_of_write hp hs hreg hidle hprog
      _ = .next u := writeReg_readOnly hcmd harg0 harg1 v u

end Sys2Proof.Proofs
end

section
/-! PROOFS. Illegal command words: the decoder's cases of R86, and the failures of a command word. -/

namespace Sys2Proof.Proofs

open Sys2Proof Sys2Proof.Machine

/-! ### Which words are illegal -/

/-- R86 (c): the decoding of a command without a channel is illegal where CH is not 0. -/
theorem decodePlain_illegal_iff (ch : BitVec 4) (i : Instr) :
    (∃ why, decodePlain ch i = .illegal why) ↔ ch ≠ 0 := by
  by_cases h : ch = 0
  · simp [decodePlain, h]
  · exact ⟨fun _ => h, fun _ => ⟨.channelNotZero, if_neg h⟩⟩

/-- R86 (d): the decoding of a PWM command is illegal in the CTC family. -/
theorem decodePwm_illegal_iff (m : Mode) (i : Instr) :
    (∃ why, decodePwm m i = .illegal why) ↔ m = .ctc := by
  cases m <;> simp [decodePwm]

theorem decodeWord_of_rsvField_ne {w : Word} (h : rsvField w ≠ 0) (m : Mode) :
    decodeWord m w = .illegal .reservedBits :=
  if_neg h

section
variable {w : Word} (hrsv : rsvField w = 0)
include hrsv

theorem decodeWord_of_op_reserved (hop : (opField w).toNat = 0x0 ∨ 0xC ≤ (opField w).toNat)
    (m : Mode) : decodeWord m w = .illegal .reservedOp := by
  have hlt := (opField w).isLt
  rw [decodeWord, if_pos hrsv]
  generalize (opField w).toNat = op at hop hlt
  rcases hop with rfl | hop
  · rfl
  · interval_cases op <;> rfl

theorem decodeWord_of_op_plain (hop : 1 ≤ (opField w).toNat ∧ (opField w).toNat ≤ 8) (m : Mode) :
    ∃ i, decodeWord m w = decodePlain (chField w) i := by
  obtain ⟨hlo, hhi⟩ := hop
  rw [decodeWord, if_pos hrsv]
  generalize (opField w).toNat = op at hlo hhi
  interval_cases op <;> exact ⟨_, rfl⟩

theorem decodeWord_of_op_pwm (hop : 9 ≤ (opField w).toNat ∧ (opField w).toNat ≤ 0xB) (m : Mode) :
    ∃ i, decodeWord m w = decodePwm m i := by
  obtain ⟨hlo, hhi⟩ := hop
  rw [decodeWord, if_pos hrsv]
  generalize (opField w).toNat = op at hlo hhi
  interval_cases op <;> exact ⟨_, rfl⟩

end

/-- R86: RSV is looked at first; where it is 0, OP lies in one of the three ranges of the opcode map
R85, and each range has its own illegal words. -/
theorem decodeWord_illegal_iff (m : Mode) (w : Word) :
    (∃ why, decodeWord m w = .illegal why) ↔
      ((opField w).toNat = 0x0 ∨ 0xC ≤ (opField w).toNat) ∨
      rsvField w ≠ 0 ∨
      ((1 ≤ (opField w).toNat ∧ (opField w).toNat ≤ 8) ∧ chField w ≠ 0) ∨
      (m = .ctc ∧ 9 ≤ (opField w).toNat ∧ (opField w).toNat ≤ 0xB) := by
  by_cases hrsv : rsvField w = 0
  case neg => exact ⟨fun _ => .inr (.inl hrsv), fun _ => ⟨_, decodeWord_of_rsvField_ne hrsv m⟩⟩
  have hranges : ((opField w).toNat = 0x0 ∨ 0xC ≤ (opField w).toNat) ∨
      (1 ≤ (opField w).toNat ∧ (opField w).toNat ≤ 8) ∨
      (9 ≤ (opField w).toNat ∧ (opField w).toNat ≤ 0xB) := by omega
  rcases hranges with hop | hop | hop
  · simp [decodeWord_of_op_reserved hrsv hop, hop]
  · obtain ⟨i, hdec⟩ := decodeWord_of_op_plain hrsv hop m
    rw [hdec, decodePlain_illegal_iff]
    grind
  · obtain ⟨i, hdec⟩ := decodeWord_of_op_pwm hrsv hop m
    rw [hdec, decodePwm_illegal_iff]
    grind

/-! ### What an illegal word and an unrecognised channel do -/

theorem issue_of_illegal {s : State} {w : Word} {why : DecodeError}
    (h : decodeWord s.par.mode w = .illegal why) : issue w s = .next (illegalCommand s) := by
  simp [issue, h]

/-- In the SYM family, a PWM command whose channel is not recognised (CH ≥ NCH) fails with
InvalidArgument in each of its legal states (R181, R182, R184). -/
theorem exec_unrecognisedChannel {i : Instr} {s : State} (hpwm : i.isPwm = true)
    (hmode : s.par.mode = .sym) (hch : s.par.nch ≤ i.channel) (hconf : configured s = true) :
    exec i s = .next { s with fail := true, cause := .invalidArgument } := by
  cases i
  case pwmEnable ch =>
    have hch : s.par.nch ≤ ch := hch
    simp [exec, execPwmEnable, State.setResult, hmode, hconf, hch]
  case pwmDisable ch =>
    have hch : s.par.nch ≤ ch := hch
    simp [exec, execPwmDisable, State.setResult, hmode, hch]
  case pwmSetDuty ch =>
    have hch : s.par.nch ≤ ch := hch
    simp [exec, execPwmSetDuty, State.setResult, hmode, hconf, hch]
  all_goals cases hpwm

/-- Settles O4: the decoder's cases, the write of an illegal word through `step_of_write`, and the
channel check of the three PWM commands. -/
theorem illegalWordsFailAlone : Obligations.IllegalWordsFailAlone := by
  refine ⟨decodeWord_illegal_iff, ?step, ?channel⟩
  case step =>
    intro s w why rest ts hp hidle hs hprog hdec
    calc step s = issue w { s with sched := ts, prog := rest } :=
          step_of_write (reg := .cmd) hp hs (by simp) hidle hprog
      _ = .next (illegalCommand { s with sched := ts, prog := rest }) := issue_of_illegal hdec
  case channel =>
    intro s w ch hmode hch hstate
    have hconf := (configured_iff s).2 hstate
    exact ⟨fun _ => exec_unrecognisedChannel rfl hmode hch hconf,
      fun _ => exec_unrecognisedChannel rfl hmode hch hconf,
      fun _ => exec_unrecognisedChannel rfl hmode hch hconf⟩

end Sys2Proof.Proofs
end

section
/-! PROOFS. The prescaler selector: the cycle count and its rounding (R101). -/

namespace Sys2Proof.Proofs

open Sys2Proof Sys2Proof.Machine

theorem modeDivisor_pos (m : Mode) : 0 < modeDivisor m := by
  cases m <;> decide

/-- The quotient of R101, rounded half up, is at least `c` exactly where the exact quotient is at
least `c - 1/2`; the inequality is cleared of fractions, so it has no subtraction. -/
theorem le_cycles_iff (p : Params) (period c : Nat) :
    c ≤ cycles p period ↔
      2 * (modeDivisor p.mode * 1000000 * c) ≤
        2 * (p.fHz * period) + modeDivisor p.mode * 1000000 := by
  have hdiv : 0 < 2 * modeDivisor p.mode * 1000000 := by
    have := modeDivisor_pos p.mode
    omega
  rw [cycles, Nat.le_div_iff_mul_le hdiv, Nat.mul_comm c]
  simp only [Nat.mul_assoc]

theorem cycles_lt_iff (p : Params) (period c : Nat) :
    cycles p period < c ↔
      2 * (p.fHz * period) + modeDivisor p.mode * 1000000 <
        2 * (modeDivisor p.mode * 1000000 * c) := by
  simpa only [Nat.not_le] using (le_cycles_iff p period c).not

/-- Settles O11: the count is at least itself and below its successor, each read through the
rounding bounds `le_cycles_iff` and `cycles_lt_iff`. -/
theorem cyclesRoundHalfUp : Obligations.CyclesRoundHalfUp := fun p period =>
  ⟨(le_cycles_iff p period _).1 (Nat.le_refl _),
    (cycles_lt_iff p period _).1 (Nat.lt_succ_self _)⟩

end Sys2Proof.Proofs
end

section
/-! PROOFS. The lifecycle commands (R120, R122, R125 to R143): an equation per case of each meaning,
and the table of states and results over all commands. -/

namespace Sys2Proof.Proofs

open Sys2Proof Sys2Proof.Machine

/-! ### What each lifecycle command answers -/

section
variable {s : State}

theorem initHandle_getD (s : State) (h : Word) :
    (initHandle s).getD h = if s.arg1 ≠ 0 then s.arg1 else h := by
  by_cases h0 : s.arg1 = 0
  · rw [initHandle, if_pos h0, if_neg (not_not_intro h0)]
    rfl
  · rw [initHandle, if_neg h0, if_pos h0]
    rfl

/-- CS_HW is kept: the selection write reaches it only while Running (R121). -/
theorem exec_init_of_uninitialized (h : s.tstate = .uninitialized) :
    exec .init s = .next { s with
      top := (select s.par s.arg0.toNat).top
      csSel := (select s.par s.arg0.toNat).cs
      cb := if s.arg1 ≠ 0 then s.arg1 else s.cb
      tstate := .ready
      fail := !(select s.par s.arg0.toNat).inRange
      cause := if (select s.par s.arg0.toNat).inRange then .none else .rangeViolation } := by
  have hrun : s.tstate ≠ .running := by simp [h]
  simp only [exec, execInit, if_pos h, applySelection_eq, finishRange_eq, initHandle_getD,
    State.setSelection, if_neg hrun]
  rfl

theorem exec_init_of_not_uninitialized (h : s.tstate ≠ .uninitialized) :
    exec .init s = .next { s with fail := true, cause := .stateViolation } :=
  if_neg h

theorem exec_setPeriod (s : State) :
    exec .setPeriod s = .next { s with
      top := (select s.par s.arg0.toNat).top
      csSel := (select s.par s.arg0.toNat).cs
      csHw := if s.tstate = .running then (select s.par s.arg0.toNat).cs else s.csHw
      fail := !(select s.par s.arg0.toNat).inRange
      cause := if (select s.par s.arg0.toNat).inRange then .none else .rangeViolation } := by
  simp only [exec, execSetPeriod, applySelection_eq, finishRange_eq]
  rfl

/-- The issue step of a guarded START; FRESH is set because the guard exists in SYM only (R133). -/
theorem exec_start_of_guard (h : s.tstate = .ready ∨ s.tstate = .stopped)
    (hg : s.par.mode = .sym ∧ s.cb ≠ 0 ∧ s.csSel ≠ 0) :
    exec .start s = .next { s with
      ie := false, cnt := 0, dir := .up, csHw := s.csSel, fresh := true
      busyOp := .startGuard } := by
  simp [exec, execStart, h, (guardApplies_iff s).2 hg, startCounter, hg.1]

theorem exec_start_of_no_guard (h : s.tstate = .ready ∨ s.tstate = .stopped)
    (hg : ¬(s.par.mode = .sym ∧ s.cb ≠ 0 ∧ s.csSel ≠ 0)) :
    exec .start s = .next { s with
      cnt := 0, dir := .up, csHw := s.csSel
      fresh := if s.par.mode = .sym then true else s.fresh
      ie := decide (s.cb ≠ 0), tstate := .running, fail := false, cause := .none } := by
  have hguard : ¬guardApplies s = true := mt (guardApplies_iff s).1 hg
  simp only [exec, execStart, if_pos h, if_neg hguard]
  rfl

theorem exec_start_of_illegal (h : ¬(s.tstate = .ready ∨ s.tstate = .stopped)) :
    exec .start s = .next { s with fail := true, cause := .stateViolation } :=
  if_neg h

theorem tick_of_startGuard (h : s.busyOp = .startGuard) :
    tick s = { tickCounter s with
      ie := true, tstate := .running, busyOp := .none, fail := false, cause := .none } := by
  rcases tick_cases s with ⟨hb, _⟩ | ⟨_, htick⟩ | ⟨hb, _⟩
  · simp [h] at hb
  · exact htick
  · simp [h] at hb

theorem exec_stop (s : State) :
    exec .stop s = .next { s with
      csHw := 0, tstate := .stopped, fail := false, cause := .none } :=
  rfl

theorem exec_resume_of_stopped (h : s.tstate = .stopped) :
    exec .resume s = .next { s with
      csHw := s.csSel, tstate := .running, fail := false, cause := .none } :=
  if_pos h

theorem exec_resume_of_not_stopped (h : s.tstate ≠ .stopped) :
    exec .resume s = .next { s with fail := true, cause := .stateViolation } :=
  if_neg h

theorem exec_attach_of_ne_zero (h : s.arg0 ≠ 0) :
    exec .attach s = .next { s with
      cb := s.arg0, ie := if s.tstate = .running then true else s.ie
      fail := false, cause := .none } := by
  simp only [exec, execAttach, attachHandle, if_neg h]
  rfl

theorem exec_attach_of_zero (h : s.arg0 = 0) :
    exec .attach s = .next { s with fail := true, cause := .invalidArgument } := by
  simp only [exec, execAttach, attachHandle, if_pos h]
  rfl

theorem exec_detach (s : State) :
    exec .detach s = .next { s with
      cb := 0, ie := if s.tstate = .running then false else s.ie
      fail := false, cause := .none } :=
  rfl

end

/-! ### The lifecycle statements -/

/-- Settles O17, by the two cases of R125. -/
theorem initCommand : Obligations.InitCommand :=
  ⟨fun _ => rfl, fun _ => ⟨exec_init_of_uninitialized, exec_init_of_not_uninitialized⟩⟩

/-- Settles O18, by the one case of R127. -/
theorem setPeriodCommand : Obligations.SetPeriodCommand :=
  ⟨fun _ => rfl, exec_setPeriod⟩

/-- Settles O19, by the issue, the one-step form and the failure of R130, and the completion that
the tick performs (R214). -/
theorem startCommand : Obligations.StartCommand :=
  ⟨fun _ => rfl,
    fun _ hlegal => ⟨exec_start_of_guard hlegal, exec_start_of_no_guard hlegal⟩,
    fun _ => exec_start_of_illegal,
    fun _ => tick_of_startGuard⟩

/-- Settles O20: the fields that STOP writes do not depend on the state, so it is idempotent. -/
theorem stopCommand : Obligations.StopCommand := by
  refine ⟨fun _ => rfl, fun s => ⟨exec_stop s, fun t h => ?_⟩⟩
  cases h
  exact exec_stop _

/-- Settles O21, by the two cases of R139. -/
theorem resumeCommand : Obligations.ResumeCommand :=
  ⟨fun _ => rfl, fun _ => ⟨exec_resume_of_stopped, exec_resume_of_not_stopped⟩⟩

/-- Settles O22, by whether a handle is given (R141). -/
theorem attachCommand : Obligations.AttachCommand :=
  ⟨fun _ => rfl, fun _ => ⟨exec_attach_of_ne_zero, exec_attach_of_zero⟩⟩

/-- Settles O23, by the one case of R143. -/
theorem detachCommand : Obligations.DetachCommand :=
  ⟨fun _ => rfl, exec_detach⟩

end Sys2Proof.Proofs
end

section
/-! PROOFS. The rules over all commands: what a command answers outside its legal states (R120), and
the table of states and results (R122). -/

namespace Sys2Proof.Proofs

open Sys2Proof Sys2Proof.Machine

/-! ### Legal states and the families that have a command -/

theorem existsIn_eq_false_iff (m : Mode) (i : Instr) :
    i.existsIn m = false ↔ m = .ctc ∧ i.isPwm = true := by
  cases m <;> simp [Instr.existsIn]

theorem mode_of_pwm_existsIn {m : Mode} {i : Instr} (hx : i.existsIn m = true)
    (hpwm : i.isPwm = true) : m = .sym := by
  cases m
  · simp [Instr.existsIn, hpwm] at hx
  · rfl

theorem legalIn_pwmEnable (ch : Nat) (s : State) :
    legalIn (.pwmEnable ch) s.tstate = configured s := by
  unfold configured
  cases s.tstate <;> rfl

/-- PWM_SET_DUTY shares the legal states of PWM_ENABLE (R181, R182). -/
theorem legalIn_pwmSetDuty (ch : Nat) (s : State) :
    legalIn (.pwmSetDuty ch) s.tstate = configured s :=
  legalIn_pwmEnable ch s

/-- The dashes of R122: a command leaves an illegal state as it is. -/
theorem stateAfter_of_illegal {i : Instr} {t : TimerState} (hl : legalIn i t = false) :
    stateAfter i t = t := by
  cases i
  case init => exact if_neg (by simpa [legalIn] using hl)
  case start => exact if_neg (by simpa [legalIn] using hl)
  case resume => exact if_neg (by simpa [legalIn] using hl)
  case stop => cases hl
  all_goals rfl

theorem stateAfter_of_isPwm {i : Instr} (hpwm : i.isPwm = true) (t : TimerState) :
    stateAfter i t = t := by
  cases i
  case pwmEnable => rfl
  case pwmDisable => rfl
  case pwmSetDuty => rfl
  all_goals cases hpwm

/-! ### What READ and the PWM commands answer -/

section
variable {s : State} {ch : Nat}

theorem exec_read_of_probe (h : s.tstate = .running ∨ s.tstate = .stopped)
    (hp : probeApplies s = true) :
    exec .read s = .next { s with v1 := s.cnt, busyOp := .readProbe } := by
  simp only [exec, execRead, if_pos h, if_pos hp]

theorem exec_read_of_no_probe (h : s.tstate = .running ∨ s.tstate = .stopped)
    (hp : ¬probeApplies s = true) : exec .read s = .next (deliverReading s.cnt s) := by
  simp only [exec, execRead, if_pos h, if_neg hp]

theorem exec_read_of_illegal (h : ¬(s.tstate = .running ∨ s.tstate = .stopped)) :
    exec .read s = .next { s with fail := true, cause := .stateViolation } :=
  if_neg h

/-- A PWM command in the CTC family answers as its illegal word does (R86 d, R201). -/
theorem exec_pwm_of_ctc {i : Instr} (hm : s.par.mode = .ctc) (hpwm : i.isPwm = true) :
    exec i s = .next { s with fail := true, cause := .invalidArgument } := by
  cases i
  case pwmEnable => exact if_pos hm
  case pwmDisable => exact if_pos hm
  case pwmSetDuty => exact if_pos hm
  all_goals cases hpwm

theorem exec_pwmEnable_of_not_configured (hm : s.par.mode = .sym) (hc : configured s = false) :
    exec (.pwmEnable ch) s = .next { s with fail := true, cause := .stateViolation } := by
  simp [exec, execPwmEnable, hm, hc, State.setResult]

theorem exec_pwmSetDuty_of_not_configured (hm : s.par.mode = .sym) (hc : configured s = false) :
    exec (.pwmSetDuty ch) s = .next { s with fail := true, cause := .stateViolation } := by
  simp [exec, execPwmSetDuty, hm, hc, State.setResult]

theorem exec_pwmDisable_of_unrecognised (hm : s.par.mode = .sym) (hch : s.par.nch ≤ ch) :
    exec (.pwmDisable ch) s = .next { s with fail := true, cause := .invalidArgument } := by
  simp [exec, execPwmDisable, hm, hch, State.setResult]

theorem exec_pwmDisable_of_recognised (hm : s.par.mode = .sym) (hch : ¬s.par.nch ≤ ch) :
    exec (.pwmDisable ch) s = .next (finishOk (s.setOce ch false)) := by
  simp [exec, execPwmDisable, hm, hch]

/-- With a recognised channel the duty alone decides the result, which is Ok or RangeViolation. -/
theorem exec_pwmSetDuty_of_recognised (hm : s.par.mode = .sym) (hc : configured s = true)
    (hch : ¬s.par.nch ≤ ch) :
    ∃ ok u, exec (.pwmSetDuty ch) s = .next (finishRange ok u) ∧
      u.tstate = s.tstate ∧ u.busyOp = s.busyOp := by
  by_cases hd : dutyInRange s.par (dutyOperand s) = true
  · exact ⟨true, s.setCmp ch (dutyToCmp s.par s.top (dutyOperand s)),
      by simp [exec, execPwmSetDuty, hm, hc, hch, hd], rfl, rfl⟩
  · exact ⟨false, s, by simp [exec, execPwmSetDuty, hm, hc, hch, hd], rfl, rfl⟩

/-- With a recognised channel the period and the duty decide the result, which is Ok or
RangeViolation. -/
theorem exec_pwmEnable_of_recognised (hm : s.par.mode = .sym) (hc : configured s = true)
    (hch : ¬s.par.nch ≤ ch) :
    ∃ ok u, exec (.pwmEnable ch) s = .next (finishRange ok u) ∧
      u.tstate = s.tstate ∧ u.busyOp = s.busyOp := by
  cases hp : periodOverride s with
  | none =>
    by_cases hd : dutyInRange s.par (dutyOperand s) = true
    · exact ⟨true, (s.setOce ch true).setCmp ch (dutyToCmp s.par s.top (dutyOperand s)),
        by simp [exec, execPwmEnable, hm, hc, hch, hp, hd], rfl, rfl⟩
    · exact ⟨false, s.setOce ch true,
        by simp [exec, execPwmEnable, hm, hc, hch, hp, hd], rfl, rfl⟩
  | some period =>
    by_cases hd : dutyInRange s.par (dutyOperand s) = true
    · exact ⟨(select s.par period).inRange,
        ((s.setSelection (select s.par period)).setOce ch true).setCmp ch
          (dutyToCmp s.par (select s.par period).top (dutyOperand s)),
        by simp [exec, execPwmEnable, hm, hc, hch, hp, hd], rfl, rfl⟩
    · exact ⟨false, (s.setSelection (select s.par period)).setOce ch true,
        by simp [exec, execPwmEnable, hm, hc, hch, hp, hd], rfl, rfl⟩

end

/-! ### Outside the legal states -/

/-- R120: the commands with an illegal state (R122) are those whose meaning tests STATE first. -/
theorem exec_of_illegalState {i : Instr} {s : State} (hx : i.existsIn s.par.mode = true)
    (hl : legalIn i s.tstate = false) :
    exec i s = .next { s with fail := true, cause := .stateViolation } := by
  cases i
  case init => exact exec_init_of_not_uninitialized (by simpa [legalIn] using hl)
  case start => exact exec_start_of_illegal (by simpa [legalIn] using hl)
  case resume => exact exec_resume_of_not_stopped (by simpa [legalIn] using hl)
  case read => exact exec_read_of_illegal (by simpa [legalIn] using hl)
  case pwmEnable ch =>
    exact exec_pwmEnable_of_not_configured (mode_of_pwm_existsIn hx rfl)
      (legalIn_pwmEnable ch s ▸ hl)
  case pwmSetDuty ch =>
    exact exec_pwmSetDuty_of_not_configured (mode_of_pwm_existsIn hx rfl)
      (legalIn_pwmSetDuty ch s ▸ hl)
  all_goals cases hl

/-! ### The answer of every command -/

/-- The results that a command can have in the family `m` from the state `t`: the table's in a legal
state, StateViolation elsewhere (R122), and InvalidArgument where the family lacks the command
(R86 d). -/
def possibleResults (m : Mode) (i : Instr) (t : TimerState) : List Cause :=
  if i.existsIn m then if legalIn i t then tableResults i else [.stateViolation]
  else [.invalidArgument]

/-- `t` is a completed run of the command from `s`, by the table of R122. -/
structure Completed (i : Instr) (s t : State) : Prop where
  tstate : t.tstate = stateAfter i s.tstate
  cause : t.cause ∈ possibleResults s.par.mode i s.tstate
  fail : t.fail = decide (t.cause ≠ .none)

/-- `t` answers the command issued in `s`: a completed run, or the beginning of a wait, which leaves
STATE as it is until its completion (R90, R122). -/
def Answers (i : Instr) (s t : State) : Prop :=
  (t.busyOp = s.busyOp ∧ Completed i s t) ∨
  (t.busyOp ≠ .none ∧ t.tstate = s.tstate ∧ Completed i s (completeWait t))

section
variable {i : Instr} {s t : State}

theorem completed_of_absent (hx : i.existsIn s.par.mode = false) :
    Completed i s { s with fail := true, cause := .invalidArgument } where
  tstate := (stateAfter_of_isPwm ((existsIn_eq_false_iff _ _).1 hx).2 _).symm
  cause := by simp [possibleResults, hx]
  fail := rfl

theorem completed_of_illegal (hx : i.existsIn s.par.mode = true)
    (hl : legalIn i s.tstate = false) :
    Completed i s { s with fail := true, cause := .stateViolation } where
  tstate := (stateAfter_of_illegal hl).symm
  cause := by simp [possibleResults, hx, hl]
  fail := rfl

theorem completed_of_legal (hx : i.existsIn s.par.mode = true) (hl : legalIn i s.tstate = true)
    (hstate : t.tstate = stateAfter i s.tstate) (hcause : t.cause ∈ tableResults i)
    (hfail : t.fail = decide (t.cause ≠ .none)) : Completed i s t where
  tstate := hstate
  cause := by simpa [possibleResults, hx, hl] using hcause
  fail := hfail

theorem Completed.results (h : Completed i s t) (hx : i.existsIn s.par.mode = true) :
    (legalIn i s.tstate = true → t.cause ∈ tableResults i) ∧
    (legalIn i s.tstate = false → t.cause = .stateViolation) ∧
    t.fail = decide (t.cause ≠ .none) := by
  have hmem := h.cause
  exact ⟨fun hl => by simpa [possibleResults, hx, hl] using hmem,
    fun hl => by simpa [possibleResults, hx, hl] using hmem, h.fail⟩

/-- `ok` is whether the period or the duty is in range (R125, R127, R181, R182). -/
theorem completed_of_range {ok : Bool} (hx : i.existsIn s.par.mode = true)
    (hl : legalIn i s.tstate = true) (hstate : t.tstate = stateAfter i s.tstate)
    (hfail : t.fail = !ok) (hcause : t.cause = if ok then .none else .rangeViolation)
    (hok : .none ∈ tableResults i) (hrange : .rangeViolation ∈ tableResults i) :
    Completed i s t := by
  cases ok
  · exact completed_of_legal hx hl hstate (by rwa [hcause]) (by rw [hfail, hcause]; rfl)
  · exact completed_of_legal hx hl hstate (by rwa [hcause]) (by rw [hfail, hcause]; rfl)

end

section
variable {s : State} {ch : Nat}

theorem answers_init (hx : Instr.init.existsIn s.par.mode = true)
    (hl : legalIn .init s.tstate = true) : ∃ t, exec .init s = .next t ∧ Answers .init s t := by
  have hu : s.tstate = .uninitialized := by simpa [legalIn] using hl
  exact ⟨_, exec_init_of_uninitialized hu, .inl ⟨rfl, completed_of_range hx hl (if_pos hu).symm
    rfl rfl (by simp [tableResults]) (by simp [tableResults])⟩⟩

theorem answers_setPeriod (hx : Instr.setPeriod.existsIn s.par.mode = true)
    (hl : legalIn .setPeriod s.tstate = true) :
    ∃ t, exec .setPeriod s = .next t ∧ Answers .setPeriod s t :=
  ⟨_, exec_setPeriod s, .inl ⟨rfl, completed_of_range hx hl rfl
    rfl rfl (by simp [tableResults]) (by simp [tableResults])⟩⟩

/-- A guarded START waits and reaches Running at its completion; any other reaches it at once. -/
theorem answers_start (hx : Instr.start.existsIn s.par.mode = true)
    (hl : legalIn .start s.tstate = true) :
    ∃ t, exec .start s = .next t ∧ Answers .start s t := by
  have hs : s.tstate = .ready ∨ s.tstate = .stopped := by simpa [legalIn] using hl
  have hafter : .running = stateAfter .start s.tstate := (if_pos hs).symm
  by_cases hg : s.par.mode = .sym ∧ s.cb ≠ 0 ∧ s.csSel ≠ 0
  · exact ⟨_, exec_start_of_guard hs hg,
      .inr ⟨by simp, rfl, completed_of_legal hx hl hafter (.head _) rfl⟩⟩
  · exact ⟨_, exec_start_of_no_guard hs hg,
      .inl ⟨rfl, completed_of_legal hx hl hafter (.head _) rfl⟩⟩

theorem answers_resume (hx : Instr.resume.existsIn s.par.mode = true)
    (hl : legalIn .resume s.tstate = true) :
    ∃ t, exec .resume s = .next t ∧ Answers .resume s t := by
  have hs : s.tstate = .stopped := by simpa [legalIn] using hl
  exact ⟨_, exec_resume_of_stopped hs,
    .inl ⟨rfl, completed_of_legal hx hl (if_pos hs).symm (.head _) rfl⟩⟩

theorem answers_attach (hx : Instr.attach.existsIn s.par.mode = true)
    (hl : legalIn .attach s.tstate = true) :
    ∃ t, exec .attach s = .next t ∧ Answers .attach s t := by
  by_cases h0 : s.arg0 = 0
  · exact ⟨_, exec_attach_of_zero h0,
      .inl ⟨rfl, completed_of_legal hx hl rfl (by simp [tableResults]) rfl⟩⟩
  · exact ⟨_, exec_attach_of_ne_zero h0,
      .inl ⟨rfl, completed_of_legal hx hl rfl (.head _) rfl⟩⟩

/-- A probing READ waits; its completion delivers a reading as the one-step form does. -/
theorem answers_read (hx : Instr.read.existsIn s.par.mode = true)
    (hl : legalIn .read s.tstate = true) : ∃ t, exec .read s = .next t ∧ Answers .read s t := by
  have hs : s.tstate = .running ∨ s.tstate = .stopped := by simpa [legalIn] using hl
  by_cases hp : probeApplies s = true
  · exact ⟨_, exec_read_of_probe hs hp,
      .inr ⟨by simp, rfl, completed_of_legal hx hl rfl (.head _) rfl⟩⟩
  · exact ⟨_, exec_read_of_no_probe hs hp,
      .inl ⟨rfl, completed_of_legal hx hl rfl (.head _) rfl⟩⟩

theorem answers_pwmDisable (hx : (Instr.pwmDisable ch).existsIn s.par.mode = true)
    (hl : legalIn (.pwmDisable ch) s.tstate = true) :
    ∃ t, exec (.pwmDisable ch) s = .next t ∧ Answers (.pwmDisable ch) s t := by
  have hm := mode_of_pwm_existsIn hx rfl
  by_cases hch : s.par.nch ≤ ch
  · exact ⟨_, exec_pwmDisable_of_unrecognised hm hch,
      .inl ⟨rfl, completed_of_legal hx hl rfl (by simp [tableResults]) rfl⟩⟩
  · exact ⟨_, exec_pwmDisable_of_recognised hm hch,
      .inl ⟨rfl, completed_of_legal hx hl rfl (.head _) rfl⟩⟩

/-- PWM_ENABLE and PWM_SET_DUTY share their results: the channel is tested first, then what is out
of range (R201). -/
theorem answers_of_duty {i : Instr} (hpwm : i.isPwm = true)
    (hresults : tableResults i = [.none, .invalidArgument, .rangeViolation])
    (hx : i.existsIn s.par.mode = true) (hl : legalIn i s.tstate = true)
    (hc : configured s = true)
    (hrange : ¬s.par.nch ≤ i.channel → ∃ ok u, exec i s = .next (finishRange ok u) ∧
      u.tstate = s.tstate ∧ u.busyOp = s.busyOp) :
    ∃ t, exec i s = .next t ∧ Answers i s t := by
  have hafter := stateAfter_of_isPwm hpwm s.tstate
  by_cases hch : s.par.nch ≤ i.channel
  · exact ⟨_, exec_unrecognisedChannel hpwm (mode_of_pwm_existsIn hx hpwm) hch hc,
      .inl ⟨rfl, completed_of_legal hx hl hafter.symm (by simp [hresults]) rfl⟩⟩
  · obtain ⟨ok, u, h, hstate, hbusy⟩ := hrange hch
    rw [finishRange_eq] at h
    exact ⟨_, h, .inl ⟨hbusy, completed_of_range hx hl (hstate.trans hafter.symm)
      rfl rfl (by simp [hresults]) (by simp [hresults])⟩⟩

end

theorem answers_of_legal {i : Instr} {s : State} (hx : i.existsIn s.par.mode = true)
    (hl : legalIn i s.tstate = true) : ∃ t, exec i s = .next t ∧ Answers i s t := by
  cases i
  case init => exact answers_init hx hl
  case setPeriod => exact answers_setPeriod hx hl
  case start => exact answers_start hx hl
  case stop =>
    exact ⟨_, exec_stop s, .inl ⟨rfl, completed_of_legal hx hl rfl (.head _) rfl⟩⟩
  case resume => exact answers_resume hx hl
  case attach => exact answers_attach hx hl
  case detach =>
    exact ⟨_, exec_detach s, .inl ⟨rfl, completed_of_legal hx hl rfl (.head _) rfl⟩⟩
  case read => exact answers_read hx hl
  case pwmEnable ch =>
    have hc : configured s = true := legalIn_pwmEnable ch s ▸ hl
    exact answers_of_duty rfl rfl hx hl hc
      (exec_pwmEnable_of_recognised (mode_of_pwm_existsIn hx rfl) hc)
  case pwmDisable => exact answers_pwmDisable hx hl
  case pwmSetDuty ch =>
    have hc : configured s = true := legalIn_pwmSetDuty ch s ▸ hl
    exact answers_of_duty rfl rfl hx hl hc
      (exec_pwmSetDuty_of_recognised (mode_of_pwm_existsIn hx rfl) hc)

/-- Every command answers a next state, and by the table: the family may lack the command (R86 d),
the state may be illegal for it (R120), or the command runs. -/
theorem exec_answers (i : Instr) (s : State) : ∃ t, exec i s = .next t ∧ Answers i s t := by
  cases hx : i.existsIn s.par.mode
  case false =>
    obtain ⟨hm, hpwm⟩ := (existsIn_eq_false_iff _ _).1 hx
    exact ⟨_, exec_pwm_of_ctc hm hpwm, .inl ⟨rfl, completed_of_absent hx⟩⟩
  case true =>
    cases hl : legalIn i s.tstate
    case false =>
      exact ⟨_, exec_of_illegalState hx hl, .inl ⟨rfl, completed_of_illegal hx hl⟩⟩
    case true => exact answers_of_legal hx hl

theorem answers_of_exec {i : Instr} {s t : State} (h : exec i s = .next t) : Answers i s t := by
  obtain ⟨u, hu, ha⟩ := exec_answers i s
  cases h.symm.trans hu
  exact ha

/-! ### The statements over all commands -/

/-- Settles O29: the one next state is the answer of `exec_answers`, and an illegal state is
answered by `exec_of_illegalState`. -/
theorem illegalStateMutatesNothing : Obligations.IllegalStateMutatesNothing := by
  refine ⟨fun s i => ?_, fun _ _ => exec_of_illegalState⟩
  obtain ⟨t, h, _⟩ := exec_answers i s
  refine ⟨t, h, fun u hu => ?_⟩
  cases hu.symm.trans h
  rfl

theorem completeWait_of_idle {t : State} (h : t.busyOp = .none) : completeWait t = t := by
  simp [completeWait, h]

/-- Settles O30: where the command completes at once `completeWait` adds nothing, and where it waits
`Answers` speaks of its completion. -/
theorem transitionTable : Obligations.TransitionTable := by
  intro s t i hidle h
  rcases answers_of_exec h with ⟨hbusy, hdone⟩ | ⟨hwait, hstate, hdone⟩
  · have ht : t.busyOp = .none := hbusy.trans hidle
    rw [completeWait_of_idle ht]
    exact ⟨hdone.tstate, fun _ => hdone.tstate, fun hwait => absurd ht hwait, hdone.results⟩
  · exact ⟨hdone.tstate, fun ht => absurd ht hwait, fun _ => hstate, hdone.results⟩

end Sys2Proof.Proofs
end

section
/-! PROOFS. READ (R160 to R166): the conversion through a known ratio, the one-step form, and the
completion of the probe. -/

namespace Sys2Proof.Proofs

open Sys2Proof Sys2Proof.Machine

/-- R166 with the shift of the selected code read off its ratio (R12). -/
theorem toUs_of_ratio {p : Params} {c k : Nat}
    (h : if c = 0 then k = 0 else p.table[c - 1]? = some (2 ^ k)) (val : Nat) :
    toUs p val c = (val * 1000) / (p.fHz / 1000) * 2 ^ k := by
  rw [toUs, shift_eq h]

section
variable {s : State}

/-- No probe is taken in the CTC family or with the clock stopped (R162, R164). -/
theorem not_probeApplies (h : s.par.mode = .ctc ∨ s.csHw = 0) : ¬probeApplies s = true := by
  rw [probeApplies_iff]
  rintro ⟨hsym, hrun⟩
  rcases h with hctc | hstopped
  · cases hsym.symm.trans hctc
  · exact hrun hstopped

/-- The probe compares its first snapshot with the CNT that the tick has just written (R163, R214). -/
theorem tick_of_readProbe (h : s.busyOp = .readProbe) :
    tick s = { tickCounter s with
      data := BitVec.ofNat 32
        (toUs s.par (probeValue s.top s.v1 (tickCounter s).cnt) s.csSel)
      busyOp := .none, fail := false, cause := .none } := by
  rcases tick_cases s with ⟨hb, _⟩ | ⟨hb, _⟩ | ⟨_, htick⟩
  · simp [h] at hb
  · simp [h] at hb
  · exact htick

end

/-- Settles O24, by the one-step form, the issue and the failure of R160, and the completion that the
tick performs; `toUs_of_ratio` turns each delivered reading into the formula of R166. -/
theorem readCommand : Obligations.ReadCommand := by
  refine ⟨fun _ => rfl, fun s k hlegal hplain hk => ?oneStep,
    fun s hlegal hprobe => exec_read_of_probe hlegal ((probeApplies_iff s).2 hprobe),
    fun _ => exec_read_of_illegal, fun s k hwait hk => ?completion⟩
  case oneStep =>
    rw [exec_read_of_no_probe hlegal (not_probeApplies hplain), deliverReading_eq,
      toUs_of_ratio hk]
  case completion =>
    rw [tick_of_readProbe hwait, toUs_of_ratio hk]
    rfl

end Sys2Proof.Proofs
end

section
/-! PROOFS. The PWM commands (43_pwm.md): the words that name them, and what PWM_ENABLE, PWM_DISABLE
and PWM_SET_DUTY answer in the SYM family. -/

namespace Sys2Proof.Proofs

open Sys2Proof Sys2Proof.Machine

/-! ### The words of the PWM commands -/

/-- In the SYM family RSV = 0 and OP of a PWM row select the command of the channel in CH (R85). -/
theorem decodeWord_of_pwm_fields {w : Word} {i : Instr} (hpwm : i.isPwm = true)
    (hop : (opField w).toNat = i.opcode) (hch : (chField w).toNat = i.channel)
    (hrsv : rsvField w = 0) : decodeWord .sym w = .command i := by
  rw [decodeWord, if_pos hrsv, hop, hch]
  cases i
  case pwmEnable => rfl
  case pwmDisable => rfl
  case pwmSetDuty => rfl
  all_goals cases hpwm

/-- In the SYM family the word of a PWM command names it, at every channel that fits CH (R80, R85). -/
theorem decodeWord_encode_of_isPwm {i : Instr} (hpwm : i.isPwm = true)
    (hfits : i.channelFits = true) : decodeWord .sym (encode i) = .command i := by
  have hfields : Laws.EncodeFields.Statement i := by
    cases i
    case pwmEnable ch => exact Laws.EncodeFields.pwmEnable ch
    case pwmDisable ch => exact Laws.EncodeFields.pwmDisable ch
    case pwmSetDuty ch => exact Laws.EncodeFields.pwmSetDuty ch
    all_goals cases hpwm
  obtain ⟨hop, hch, hrsv⟩ := hfields hfits
  exact decodeWord_of_pwm_fields hpwm hop hch hrsv

/-! ### What a PWM command of a recognised channel answers -/

section
variable {s : State} {ch : Nat}

theorem configured_eq_false
    (h : ¬(s.tstate = .ready ∨ s.tstate = .running ∨ s.tstate = .stopped)) :
    configured s = false :=
  Bool.eq_false_iff.2 (mt (configured_iff s).1 h)

theorem periodOverride_of_zero (h : s.arg1 = 0) : periodOverride s = none :=
  if_pos h

theorem periodOverride_of_ne_zero (h : s.arg1 ≠ 0) : periodOverride s = some s.arg1.toNat :=
  if_neg h

section
variable (hm : s.par.mode = .sym) (hc : configured s = true) (hch : ch < s.par.nch)
include hm hc hch

theorem exec_pwmSetDuty_of_inRange (hd : s.arg0.toNat ≤ 2 ^ s.par.r) :
    exec (.pwmSetDuty ch) s = .next { s with
      cmp := s.cmp.set ch (s.top * s.arg0.toNat / 2 ^ s.par.r), fail := false, cause := .none } := by
  have hd : dutyInRange s.par (dutyOperand s) = true := decide_eq_true hd
  simp only [exec, execPwmSetDuty, hm, hc, hd, Nat.not_le.2 hch]
  rfl

theorem exec_pwmSetDuty_of_outOfRange (hd : 2 ^ s.par.r < s.arg0.toNat) :
    exec (.pwmSetDuty ch) s = .next { s with fail := true, cause := .rangeViolation } := by
  have hd : dutyInRange s.par (dutyOperand s) = false := decide_eq_false (Nat.not_le.2 hd)
  simp only [exec, execPwmSetDuty, hm, hc, hd, Nat.not_le.2 hch]
  rfl

/-- Without a period override the selection stands, and the duty alone decides the result (R182). -/
theorem exec_pwmEnable_of_no_override (hp : s.arg1 = 0) :
    exec (.pwmEnable ch) s = .next { s with
      oce := s.oce.set ch true
      cmp := if s.arg0.toNat ≤ 2 ^ s.par.r then
        s.cmp.set ch (s.top * s.arg0.toNat / 2 ^ s.par.r) else s.cmp
      fail := !decide (s.arg0.toNat ≤ 2 ^ s.par.r)
      cause := if s.arg0.toNat ≤ 2 ^ s.par.r then .none else .rangeViolation } := by
  by_cases hd : s.arg0.toNat ≤ 2 ^ s.par.r
  · simp [exec, execPwmEnable, hm, hc, hch, periodOverride_of_zero hp, dutyInRange, dutyOperand,
      dutyToCmp, hd, State.setResult, State.setOce, State.setCmp]
  · simp [exec, execPwmEnable, hm, hc, hch, periodOverride_of_zero hp, dutyInRange, dutyOperand,
      hd, State.setResult, State.setOce]

/-- With a period override the selection is written first, and the duty is converted against the TOP
just written; what was written stays where either is out of range (R182). -/
theorem exec_pwmEnable_of_override (hp : s.arg1 ≠ 0) {sel : Selection}
    (hsel : select s.par s.arg1.toNat = sel) :
    exec (.pwmEnable ch) s = .next { s with
      top := sel.top
      csSel := sel.cs
      csHw := if s.tstate = .running then sel.cs else s.csHw
      oce := s.oce.set ch true
      cmp := if s.arg0.toNat ≤ 2 ^ s.par.r then
        s.cmp.set ch (sel.top * s.arg0.toNat / 2 ^ s.par.r) else s.cmp
      fail := !(sel.inRange && decide (s.arg0.toNat ≤ 2 ^ s.par.r))
      cause := if sel.inRange ∧ s.arg0.toNat ≤ 2 ^ s.par.r then .none else .rangeViolation } := by
  by_cases hd : s.arg0.toNat ≤ 2 ^ s.par.r
  · simp [exec, execPwmEnable, hm, hc, hch, periodOverride_of_ne_zero hp, hsel, dutyInRange,
      dutyOperand, dutyToCmp, hd, State.setResult, State.setSelection, State.setOce, State.setCmp]
  · simp [exec, execPwmEnable, hm, hc, hch, periodOverride_of_ne_zero hp, hsel, dutyInRange,
      dutyOperand, hd, State.setResult, State.setSelection, State.setOce]

end

end

/-! ### The obligations -/

/-- Settles O25: the word through its fields (R80); a recognised channel in a legal state by whether a
period override is given; the two failures before any write by their lemmas. -/
theorem pwmEnableCommand : Obligations.PwmEnableCommand := by
  refine ⟨fun ch h => decodeWord_encode_of_isPwm (i := .pwmEnable ch) rfl (decide_eq_true h),
    fun s ch hm => ⟨fun hlegal hch => ?recognised,
    fun hlegal hch => exec_unrecognisedChannel rfl hm hch ((configured_iff s).2 hlegal),
    fun hillegal => exec_pwmEnable_of_not_configured hm (configured_eq_false hillegal)⟩⟩
  case recognised =>
    have hc := (configured_iff s).2 hlegal
    by_cases hp : s.arg1 = 0#32
    · simp [exec_pwmEnable_of_no_override hm hc hch hp, hp]
    · simp [exec_pwmEnable_of_override hm hc hch hp rfl, hp]

/-- Settles O26, by whether the channel is recognised; STATE is never looked at (R184). -/
theorem pwmDisableCommand : Obligations.PwmDisableCommand :=
  ⟨fun ch h => decodeWord_encode_of_isPwm (i := .pwmDisable ch) rfl (decide_eq_true h),
    fun _ _ hm =>
    ⟨fun hch => exec_pwmDisable_of_recognised hm (Nat.not_le.2 hch),
      exec_pwmDisable_of_unrecognised hm⟩⟩

/-- Settles O27, by the success and the three failures of R181 in their order. -/
theorem pwmSetDutyCommand : Obligations.PwmSetDutyCommand :=
  ⟨fun ch h => decodeWord_encode_of_isPwm (i := .pwmSetDuty ch) rfl (decide_eq_true h),
    fun s _ hm =>
    ⟨fun hlegal => exec_pwmSetDuty_of_inRange hm ((configured_iff s).2 hlegal),
      fun hlegal => exec_pwmSetDuty_of_outOfRange hm ((configured_iff s).2 hlegal),
      fun hlegal hch => exec_unrecognisedChannel rfl hm hch ((configured_iff s).2 hlegal),
      fun hillegal => exec_pwmSetDuty_of_not_configured hm (configured_eq_false hillegal)⟩⟩

end Sys2Proof.Proofs
end

section
/-! PROOFS. The Counter's tick (R211 to R213): the count in each of its cases, PEND and FRESH after
it, and the runs of ticks that make up a period. -/

namespace Sys2Proof.Proofs

open Sys2Proof Sys2Proof.Machine

/-! ### The count in each of its cases -/

section
variable {s : State}

theorem count_ctc_at_top (hm : s.par.mode = .ctc) (h : s.cnt = s.top) :
    count s = { cnt := 0, dir := s.dir, event := true } := by
  simp only [count, hm]
  exact if_pos h

theorem count_ctc_off_top (hm : s.par.mode = .ctc) (h : s.cnt ≠ s.top) :
    count s = { cnt := (s.cnt + 1) % 2 ^ s.par.r, dir := s.dir, event := false } := by
  simp only [count, hm]
  exact if_neg h

theorem count_sym_top_zero (hm : s.par.mode = .sym) (h : s.top = 0) :
    count s = { cnt := 0, dir := .up, event := true } := by
  simp only [count, hm]
  exact if_pos h

theorem count_sym_rising (hm : s.par.mode = .sym) (hdir : s.dir = .up) (h : s.cnt < s.top) :
    count s = { cnt := s.cnt + 1, dir := if s.cnt + 1 = s.top then .down else .up
                event := false } := by
  have htop : s.top ≠ 0 := by omega
  simp only [count, hm, countSym, if_neg htop, if_pos (And.intro hdir h)]

theorem count_sym_arriving (hm : s.par.mode = .sym) (htop : s.top ≠ 0)
    (h : ¬(s.dir = .up ∧ s.cnt < s.top)) (hcnt : s.cnt = 1) :
    count s = { cnt := 0, dir := .up, event := true } := by
  have hzero : s.cnt - 1 = 0 := by omega
  simp only [count, hm, countSym, if_neg htop, if_neg h, if_pos hzero]

theorem count_sym_falling (hm : s.par.mode = .sym) (htop : s.top ≠ 0)
    (h : ¬(s.dir = .up ∧ s.cnt < s.top)) (hcnt : 2 ≤ s.cnt) :
    count s = { cnt := s.cnt - 1, dir := .down, event := false } := by
  have hpos : s.cnt - 1 ≠ 0 := by omega
  simp only [count, hm, countSym, if_neg htop, if_neg h, if_neg hpos]

end

/-! ### The tick -/

/-- The completion of a waiting command writes none of the fields that the tick counts with. -/
theorem tick_counted (s : State) :
    (tick s).cnt = (count s).cnt ∧ (tick s).dir = (count s).dir ∧
    (tick s).pend = (s.pend || (count s).event || spurious s) ∧ (tick s).fresh = false := by
  rcases tick_cases s with ⟨_, h⟩ | ⟨_, h⟩ | ⟨_, h⟩
  all_goals
    rw [h]
    exact ⟨rfl, rfl, rfl, rfl⟩

theorem spurious_of_not_drawAsked {s : State} (h : drawAsked s = false) : spurious s = false := by
  rw [spurious, h, Bool.false_and]

theorem spurious_of_drawAsked {s : State} (h : drawAsked s = true) :
    spurious s = Config.drawBool s.freeIdx := by
  rw [spurious, h, Bool.true_and]

/-- Settles O38, by whether the draw is asked: the free value enters PEND through `spurious`
only. -/
theorem pendingAfterTick : Obligations.PendingAfterTick := by
  intro s
  obtain ⟨_, _, hpend, hfresh⟩ := tick_counted s
  refine ⟨hfresh, fun hevent => ?event, fun hquiet => ?quiet, fun hm hf hie => ?asked⟩
  case event => rw [hpend, hevent, Bool.or_true, Bool.true_or]
  case quiet =>
    have hdraw : drawAsked s = false := Bool.eq_false_iff.2 (mt (drawAsked_iff s).1 hquiet)
    rw [hpend, spurious_of_not_drawAsked hdraw, Bool.or_false]
  case asked => rw [hpend, spurious_of_drawAsked ((drawAsked_iff s).2 ⟨hm, hf, hie⟩)]

theorem drawAsked_of_ctc {s : State} (hm : s.par.mode = .ctc) : drawAsked s = false := by
  simp [drawAsked, hm]

theorem drawAsked_of_not_fresh_or_not_ie {s : State} (h : s.fresh = false ∨ s.ie = false) :
    drawAsked s = false := by
  rcases h with h | h
  all_goals simp [drawAsked, h]

/-- Where no command waits and no draw is asked, the count decides the whole tick. -/
theorem tick_of_count {s : State} {c : Count} (hidle : s.busyOp = .none)
    (hdraw : drawAsked s = false) (hc : count s = c) :
    tick s = { s with
      cnt := c.cnt, dir := c.dir, pend := s.pend || c.event, fresh := false } := by
  simp [tick_of_idle hidle, spurious_of_not_drawAsked hdraw, hdraw, hc]

/-! ### The CTC counter -/

theorem two_pow_eq_maxTop_succ (p : Params) : 2 ^ p.r = maxTop p + 1 :=
  (Nat.sub_add_cancel Nat.one_le_two_pow).symm

section
variable {s : State} (hm : s.par.mode = .ctc) (hidle : s.busyOp = .none)
include hm hidle

theorem tick_ctc_at_top (h : s.cnt = s.top) :
    tick s = { s with cnt := 0, pend := true, fresh := false } := by
  simp [tick_of_count hidle (drawAsked_of_ctc hm) (count_ctc_at_top hm h)]

theorem tick_ctc_off_top (h : s.cnt ≠ s.top) :
    tick s = { s with cnt := (s.cnt + 1) % 2 ^ s.par.r, fresh := false } := by
  simp [tick_of_count hidle (drawAsked_of_ctc hm) (count_ctc_off_top hm h)]

/-- As long as the counter neither meets TOP nor passes MAXTOP, it rises by one with each tick. -/
theorem ticks_ctc_rising {k : Nat} (hmax : s.cnt + k ≤ maxTop s.par)
    (htop : ∀ j < k, s.cnt + j ≠ s.top) :
    ∃ fresh, ticks k s = { s with cnt := s.cnt + k, fresh := fresh } := by
  induction k with
  | zero => exact ⟨s.fresh, rfl⟩
  | succ k ih =>
    obtain ⟨fresh, hk⟩ := ih (by omega) fun j hj => htop j (by omega)
    have hmod : (s.cnt + (k + 1)) % 2 ^ s.par.r = s.cnt + (k + 1) := by
      rw [two_pow_eq_maxTop_succ]
      exact Nat.mod_eq_of_lt (by omega)
    refine ⟨false, ?_⟩
    rw [ticks_succ, hk, tick_ctc_off_top (s := { s with cnt := s.cnt + k, fresh := fresh }) hm hidle
      (htop k k.lt_succ_self)]
    simp only [Nat.add_assoc, hmod]

/-- One period of R211, from 0 to TOP and back with one event. -/
theorem ticks_ctc_period (hmax : s.top ≤ maxTop s.par) (hcnt : s.cnt = 0) :
    (∀ k, k ≤ s.top → (ticks k s).cnt = k ∧ (ticks k s).pend = s.pend) ∧
    (ticks (s.top + 1) s).cnt = 0 ∧ (ticks (s.top + 1) s).pend = true := by
  have hrise : ∀ k ≤ s.top, ∃ fresh, ticks k s = { s with cnt := k, fresh := fresh } := by
    intro k hk
    simpa [hcnt] using ticks_ctc_rising (k := k) hm hidle (by omega) (by omega)
  refine ⟨fun k hk => ?_, ?_⟩
  · obtain ⟨fresh, h⟩ := hrise k hk
    simp [h]
  · obtain ⟨fresh, h⟩ := hrise s.top le_rfl
    rw [ticks_succ, h, tick_ctc_at_top (s := { s with cnt := s.top, fresh := fresh }) hm hidle rfl]
    exact ⟨rfl, rfl⟩

/-- Above TOP the compare match is missed: the counter runs to MAXTOP and wraps without an event. -/
theorem ticks_ctc_above_top (habove : s.top < s.cnt) (hmax : s.cnt ≤ maxTop s.par) :
    (∀ k, s.cnt + k ≤ maxTop s.par →
      (ticks k s).cnt = s.cnt + k ∧ (ticks k s).pend = s.pend) ∧
    (ticks (maxTop s.par - s.cnt + 1) s).cnt = 0 ∧
    (ticks (maxTop s.par - s.cnt + 1) s).pend = s.pend := by
  have hrise : ∀ k, s.cnt + k ≤ maxTop s.par →
      ∃ fresh, ticks k s = { s with cnt := s.cnt + k, fresh := fresh } :=
    fun k hk => ticks_ctc_rising hm hidle hk (by omega)
  refine ⟨fun k hk => ?_, ?_⟩
  · obtain ⟨fresh, h⟩ := hrise k hk
    simp [h]
  · obtain ⟨fresh, h⟩ := hrise (maxTop s.par - s.cnt) (by omega)
    rw [Nat.add_sub_cancel' hmax] at h
    have hoff : maxTop s.par ≠ s.top := by omega
    rw [ticks_succ, h,
      tick_ctc_off_top (s := { s with cnt := maxTop s.par, fresh := fresh }) hm hidle hoff]
    simp [two_pow_eq_maxTop_succ]

end

/-- Settles O36, by the two cases of the tick and the two runs of ticks that they make. -/
theorem ctcCounterCounts : Obligations.CtcCounterCounts := fun _ hm hidle =>
  ⟨tick_ctc_at_top hm hidle, tick_ctc_off_top hm hidle, ticks_ctc_period hm hidle,
    ticks_ctc_above_top hm hidle⟩

/-! ### The SYM counter -/

section
variable {s : State} (hm : s.par.mode = .sym) (hidle : s.busyOp = .none)
  (hquiet : s.fresh = false ∨ s.ie = false)
include hm hidle hquiet

theorem tick_sym_top_zero (htop : s.top = 0) :
    tick s = { s with cnt := 0, dir := .up, pend := true, fresh := false } := by
  simp [tick_of_count hidle (drawAsked_of_not_fresh_or_not_ie hquiet) (count_sym_top_zero hm htop)]

theorem tick_sym_rising (hdir : s.dir = .up) (h : s.cnt < s.top) :
    tick s = { s with
      cnt := s.cnt + 1, dir := if s.cnt + 1 = s.top then .down else .up, fresh := false } := by
  simp [tick_of_count hidle (drawAsked_of_not_fresh_or_not_ie hquiet) (count_sym_rising hm hdir h)]

theorem tick_sym_arriving (htop : s.top ≠ 0) (h : ¬(s.dir = .up ∧ s.cnt < s.top))
    (hcnt : s.cnt = 1) :
    tick s = { s with cnt := 0, dir := .up, pend := true, fresh := false } := by
  simp [tick_of_count hidle (drawAsked_of_not_fresh_or_not_ie hquiet)
    (count_sym_arriving hm htop h hcnt)]

theorem tick_sym_falling (htop : s.top ≠ 0) (h : ¬(s.dir = .up ∧ s.cnt < s.top))
    (hcnt : 2 ≤ s.cnt) :
    tick s = { s with cnt := s.cnt - 1, dir := .down, fresh := false } := by
  simp [tick_of_count hidle (drawAsked_of_not_fresh_or_not_ie hquiet)
    (count_sym_falling hm htop h hcnt)]

/-- Below TOP the counter rises by one with each tick. -/
theorem ticks_sym_rising {k : Nat} (hdir : s.dir = .up) (hk : s.cnt + k < s.top) :
    ∃ fresh, (fresh = false ∨ s.ie = false) ∧
      ticks k s = { s with cnt := s.cnt + k, fresh := fresh } := by
  induction k with
  | zero => exact ⟨s.fresh, hquiet, rfl⟩
  | succ k ih =>
    obtain ⟨fresh, hquiet', ih⟩ := ih (by omega)
    have hturn : s.cnt + (k + 1) ≠ s.top := by omega
    refine ⟨false, .inl rfl, ?_⟩
    rw [ticks_succ, ih, tick_sym_rising (s := { s with cnt := s.cnt + k, fresh := fresh }) hm hidle
      hquiet' hdir (by simp only; omega)]
    simp only [Nat.add_assoc, if_neg hturn, hdir]

/-- The tick that arrives at TOP turns the counter. -/
theorem ticks_sym_turn (hdir : s.dir = .up) (hcnt : s.cnt = 0) (htop : s.top ≠ 0) :
    ticks s.top s = { s with cnt := s.top, dir := .down, fresh := false } := by
  have hlast : s.top - 1 + 1 = s.top := by omega
  obtain ⟨fresh, hquiet', h⟩ :=
    ticks_sym_rising (k := s.top - 1) hm hidle hquiet hdir (by omega)
  rw [hcnt, Nat.zero_add] at h
  calc ticks s.top s = tick (ticks (s.top - 1) s) := by rw [← ticks_succ, hlast]
    _ = { s with cnt := s.top, dir := .down, fresh := false } := by
        rw [h, tick_sym_rising (s := { s with cnt := s.top - 1, fresh := fresh }) hm hidle hquiet'
          hdir (by simp only; omega)]
        simp only [hlast, if_pos]

/-- Above 0 the counter falls by one with each tick. -/
theorem ticks_sym_falling {k : Nat} (htop : s.top ≠ 0) (hdir : s.dir = .down) (hk : k < s.cnt) :
    ∃ fresh, (fresh = false ∨ s.ie = false) ∧
      ticks k s = { s with cnt := s.cnt - k, fresh := fresh } := by
  induction k with
  | zero => exact ⟨s.fresh, hquiet, rfl⟩
  | succ k ih =>
    obtain ⟨fresh, hquiet', ih⟩ := ih (by omega)
    refine ⟨false, .inl rfl, ?_⟩
    rw [ticks_succ, ih, tick_sym_falling (s := { s with cnt := s.cnt - k, fresh := fresh }) hm hidle
      hquiet' htop (by simp [hdir]) (by simp only; omega)]
    simp only [hdir, Nat.sub_sub]

end

theorem ticks_add (j k : Nat) (s : State) : ticks (j + k) s = ticks k (ticks j s) := by
  induction k with
  | zero => rfl
  | succ k ih => rw [← Nat.add_assoc, ticks_succ, ticks_succ, ih]

section
variable {s : State} (hm : s.par.mode = .sym) (hidle : s.busyOp = .none)
  (hquiet : s.fresh = false ∨ s.ie = false) (htop : s.top ≠ 0) (hcnt : s.cnt = 0)
  (hdir : s.dir = .up)
include hm hidle hquiet htop hcnt hdir

/-- The second half of the period: `k` ticks after the turn. -/
theorem ticks_sym_after_turn {k : Nat} (hk : k < s.top) :
    ∃ fresh, (fresh = false ∨ s.ie = false) ∧
      ticks (s.top + k) s = { s with cnt := s.top - k, dir := .down, fresh := fresh } := by
  rw [ticks_add, ticks_sym_turn hm hidle hquiet hdir hcnt htop]
  exact ticks_sym_falling (s := { s with cnt := s.top, dir := .down, fresh := false }) hm hidle
    (.inl rfl) htop rfl hk

/-- The period ends with the arrival at 0, the one event in it. -/
theorem ticks_sym_period :
    ticks (2 * s.top) s = { s with cnt := 0, dir := .up, pend := true, fresh := false } := by
  have hlast : 2 * s.top = s.top + (s.top - 1) + 1 := by omega
  obtain ⟨fresh, hquiet', h⟩ :=
    ticks_sym_after_turn (k := s.top - 1) hm hidle hquiet htop hcnt hdir (by omega)
  rw [hlast, ticks_succ, h, tick_sym_arriving
    (s := { s with cnt := s.top - (s.top - 1), dir := .down, fresh := fresh }) hm hidle hquiet' htop
    (by simp) (by simp only; omega)]

/-- Every tick of the period of R212, from (0, Up). -/
theorem ticks_sym_period_visits :
    (∀ k, k < s.top →
      (ticks k s).cnt = k ∧ (ticks k s).dir = .up ∧ (ticks k s).pend = s.pend) ∧
    (∀ k, s.top ≤ k → k < 2 * s.top →
      (ticks k s).cnt = 2 * s.top - k ∧ (ticks k s).dir = .down ∧ (ticks k s).pend = s.pend) ∧
    (ticks (2 * s.top) s).cnt = 0 ∧ (ticks (2 * s.top) s).dir = .up ∧
    (ticks (2 * s.top) s).pend = true := by
  refine ⟨fun k hk => ?rising, fun k hge hlt => ?falling, ?arrival⟩
  case rising =>
    obtain ⟨fresh, _, h⟩ := ticks_sym_rising (k := k) hm hidle hquiet hdir (by omega)
    simp [h, hcnt, hdir]
  case falling =>
    obtain ⟨j, rfl⟩ := Nat.exists_eq_add_of_le hge
    obtain ⟨fresh, _, h⟩ :=
      ticks_sym_after_turn (k := j) hm hidle hquiet htop hcnt hdir (by omega)
    have hcount : s.top - j = 2 * s.top - (s.top + j) := by omega
    rw [h]
    exact ⟨hcount, rfl, rfl⟩
  case arrival =>
    rw [ticks_sym_period hm hidle hquiet htop hcnt hdir]
    exact ⟨rfl, rfl, rfl⟩

end

theorem not_rising_of_down_or_top_le {s : State} (h : s.dir = .down ∨ s.top ≤ s.cnt) :
    ¬(s.dir = .up ∧ s.cnt < s.top) := by
  rintro ⟨hup, hlt⟩
  rcases h with hdown | hle
  · cases hup.symm.trans hdown
  · omega

/-- CNT and DIR after a tick are those of its count, whatever waits or is drawn. -/
theorem tick_of_sym_count {s : State} {c : Count} (hc : count s = c) :
    (tick s).cnt = c.cnt ∧ (tick s).dir = c.dir ∧ (count s).event = c.event := by
  obtain ⟨hcnt, hdir, _⟩ := tick_counted s
  exact ⟨by rw [hcnt, hc], by rw [hdir, hc], by rw [hc]⟩

/-- Settles O37: the four cases of the count, first under any wait or draw, then as whole ticks; and
the period from them. A counter that does not rise is not at 0: with DIR = Down by the premise, with
DIR = Up because it is at TOP or above. -/
theorem symCounterCounts : Obligations.SymCounterCounts := by
  refine ⟨fun s hm hpos => ⟨?topZero, ?rising, ?arriving, ?falling⟩,
    fun s hm hidle hquiet => ⟨tick_sym_top_zero hm hidle hquiet,
      fun _ => tick_sym_rising hm hidle hquiet, tick_sym_arriving hm hidle hquiet,
      tick_sym_falling hm hidle hquiet, ticks_sym_period_visits hm hidle hquiet⟩⟩
  case topZero => exact fun htop => tick_of_sym_count (count_sym_top_zero hm htop)
  case rising => exact fun _ hdir h => tick_of_sym_count (count_sym_rising hm hdir h)
  case arriving =>
    exact fun htop h hcnt =>
      tick_of_sym_count (count_sym_arriving hm htop (not_rising_of_down_or_top_le h) hcnt)
  case falling =>
    intro htop h hcnt
    have hge : 1 ≤ s.cnt := by
      rcases h with hdown | hle
      · exact hpos hdown
      · omega
    exact tick_of_sym_count
      (count_sym_falling hm htop (not_rising_of_down_or_top_le h) (by omega))

end Sys2Proof.Proofs
end

section
/-! PROOFS. The interrupt bridge at `step`: latch and invoke (R220, R221). -/

namespace Sys2Proof.Proofs

open Sys2Proof Sys2Proof.Machine

section
variable {s : State} {ts : List Turn}

theorem step_of_latch (hp : paramsOk s.par = true) (hs : s.sched = .latch :: ts) :
    step s =
      if latchEnabled s then .next (latch { s with sched := ts }) else .fault .latchDisabled :=
  step_of_sched hp hs

theorem step_of_invoke (hp : paramsOk s.par = true) (hs : s.sched = .invoke :: ts) :
    step s =
      if invokeEnabled s then .next (invoke { s with sched := ts }) else .fault .invokeDisabled :=
  step_of_sched hp hs

/-- With no event in flight, one without a callback is dropped: INFLIGHT stays 0. -/
theorem latch_of_inflight_zero (h : s.inflight = 0) :
    latch s = { s with pend := false, inflight := if s.cb ≠ 0 then s.cb else 0 } := by
  rw [latch, h]

end

/-- Settles O40, by whether the latch is enabled. -/
theorem latchStep : Obligations.LatchStep := by
  intro s ts hp hs
  rw [← latchEnabled_iff, step_of_latch hp hs]
  refine ⟨fun h => ?enabled, fun h t => ?disabled⟩
  case enabled =>
    obtain ⟨_, _, _, hfree⟩ := (latchEnabled_iff s).1 h
    rw [if_pos h, latch_of_inflight_zero (s := { s with sched := ts }) hfree]
  case disabled =>
    rw [if_neg h]
    exact nofun

/-- Settles O41, by whether the invoke is enabled. -/
theorem invokeStep : Obligations.InvokeStep := by
  intro s ts hp hs
  rw [← invokeEnabled_iff, step_of_invoke hp hs]
  refine ⟨fun h => ?enabled, fun h t => ?disabled⟩
  case enabled =>
    rw [if_pos h]
    rfl
  case disabled =>
    rw [if_neg h]
    exact nofun

end Sys2Proof.Proofs
end

section
/-! PROOFS. Decoding and encoding agree (R80, R81, R85): a word decodes to a command exactly where
its three fields are the command's. -/

namespace Sys2Proof.Proofs

open Sys2Proof Sys2Proof.Machine

/-! ### The decoder, as an equivalence on the fields -/

theorem decodePlain_eq_command_iff (ch : BitVec 4) (i j : Instr) :
    decodePlain ch i = .command j ↔ ch.toNat = 0 ∧ i = j := by
  have hzero : ch = 0 ↔ ch.toNat = 0 := BitVec.toNat_eq
  simp only [← hzero, decodePlain]
  split <;> simp_all

theorem decodePwm_eq_command_iff (m : Mode) (i j : Instr) :
    decodePwm m i = .command j ↔ m = .sym ∧ i = j := by
  cases m <;> simp [decodePwm]

/-- What R85 reads off a word that names a command: its row exists in the family, and OP, CH and RSV
are the row's. -/
structure WordOf (m : Mode) (w : Word) (i : Instr) : Prop where
  exists_in : i.existsIn m = true
  op : (opField w).toNat = i.opcode
  ch : (chField w).toNat = i.channel
  rsv : rsvField w = 0

theorem existsIn_of_not_pwm {i : Instr} (h : i.isPwm = false) (m : Mode) : i.existsIn m = true := by
  cases m <;> simp [Instr.existsIn, h]

theorem channel_of_plain {i : Instr} (hplain : i.isPwm = false) : i.channel = 0 := by
  cases i
  case pwmEnable => cases hplain
  case pwmDisable => cases hplain
  case pwmSetDuty => cases hplain
  all_goals rfl

theorem wordOf_of_plain {m : Mode} {w : Word} {i j : Instr}
    (h : decodePlain (chField w) i = .command j) (hplain : i.isPwm = false)
    (hop : (opField w).toNat = i.opcode) (hrsv : rsvField w = 0) : WordOf m w j := by
  obtain ⟨hzero, rfl⟩ := (decodePlain_eq_command_iff _ _ _).1 h
  exact ⟨existsIn_of_not_pwm hplain m, hop, hzero.trans (channel_of_plain hplain).symm, hrsv⟩

theorem wordOf_of_pwm {m : Mode} {w : Word} {i j : Instr} (h : decodePwm m i = .command j)
    (hch : i.channel = (chField w).toNat) (hop : (opField w).toNat = i.opcode)
    (hrsv : rsvField w = 0) : WordOf m w j := by
  obtain ⟨rfl, rfl⟩ := (decodePwm_eq_command_iff _ _ _).1 h
  exact ⟨rfl, hop, hch.symm, hrsv⟩

/-- The rows of R85, one value of OP after the other. -/
theorem wordOf_of_decodeWord {m : Mode} {w : Word} {i : Instr}
    (h : decodeWord m w = .command i) : WordOf m w i := by
  by_cases hrsv : rsvField w = 0
  case neg => rw [decodeWord_of_rsvField_ne hrsv] at h; cases h
  rw [decodeWord, if_pos hrsv] at h
  split at h
  case h_1 hop | h_2 hop | h_3 hop | h_4 hop | h_5 hop | h_6 hop | h_7 hop | h_8 hop =>
    exact wordOf_of_plain h rfl hop hrsv
  case h_9 hop | h_10 hop | h_11 hop => exact wordOf_of_pwm h rfl hop hrsv
  case h_12 => cases h

theorem decodeWord_of_plain_fields {m : Mode} {w : Word} {i : Instr} (hplain : i.isPwm = false)
    (hop : (opField w).toNat = i.opcode) (hch : (chField w).toNat = 0) (hrsv : rsvField w = 0) :
    decodeWord m w = .command i := by
  rw [decodeWord, if_pos hrsv, hop]
  cases i
  case pwmEnable => cases hplain
  case pwmDisable => cases hplain
  case pwmSetDuty => cases hplain
  all_goals exact (decodePlain_eq_command_iff _ _ _).2 ⟨hch, rfl⟩

theorem decodeWord_of_wordOf {m : Mode} {w : Word} {i : Instr} (h : WordOf m w i) :
    decodeWord m w = .command i := by
  cases hpwm : i.isPwm
  case false =>
    exact decodeWord_of_plain_fields hpwm h.op (h.ch.trans (channel_of_plain hpwm)) h.rsv
  case true =>
    rw [mode_of_pwm_existsIn h.exists_in hpwm]
    exact decodeWord_of_pwm_fields hpwm h.op h.ch h.rsv

/-- R81, R85: the decoder answers a command exactly where the word is laid out as the command's. -/
theorem decodeWord_eq_command_iff (m : Mode) (w : Word) (i : Instr) :
    decodeWord m w = .command i ↔ WordOf m w i :=
  ⟨wordOf_of_decodeWord, decodeWord_of_wordOf⟩

/-! ### The word of a command and the command of a word -/

theorem encodeFields (i : Instr) : Laws.EncodeFields.Statement i := by
  cases i
  case init => exact Laws.EncodeFields.init
  case setPeriod => exact Laws.EncodeFields.setPeriod
  case start => exact Laws.EncodeFields.start
  case stop => exact Laws.EncodeFields.stop
  case resume => exact Laws.EncodeFields.resume
  case attach => exact Laws.EncodeFields.attach
  case detach => exact Laws.EncodeFields.detach
  case read => exact Laws.EncodeFields.read
  case pwmEnable ch => exact Laws.EncodeFields.pwmEnable ch
  case pwmDisable ch => exact Laws.EncodeFields.pwmDisable ch
  case pwmSetDuty ch => exact Laws.EncodeFields.pwmSetDuty ch

theorem wf_iff (m : Mode) (i : Instr) :
    i.wf m = true ↔ i.channelFits = true ∧ i.existsIn m = true := by
  rw [Instr.wf, Bool.and_eq_true]

/-- Settles O1: the fields of the encoded word (R80) are the ones that the decoder looks for. -/
theorem decodeEncodeRoundTrip : Obligations.DecodeEncodeRoundTrip := by
  intro m i hwf
  obtain ⟨hfits, hexists⟩ := (wf_iff m i).1 hwf
  obtain ⟨hop, hch, hrsv⟩ := encodeFields i hfits
  exact (decodeWord_eq_command_iff m (encode i) i).2 ⟨hexists, hop, hch, hrsv⟩

theorem channelFits_of_lt {i : Instr} (h : i.channel < 16) : i.channelFits = true := by
  cases i
  case pwmEnable => exact decide_eq_true h
  case pwmDisable => exact decide_eq_true h
  case pwmSetDuty => exact decide_eq_true h
  all_goals rfl

/-- A word is the sum of its fields: OP in bits 3:0, CH in bits 7:4, RSV above (R80). -/
theorem toNat_eq_fields (w : Word) :
    w.toNat = (opField w).toNat + 16 * (chField w).toNat + 256 * (rsvField w).toNat := by
  simp only [opField, chField, rsvField, BitVec.extractLsb'_toNat, Nat.shiftRight_eq_div_pow]
  omega

/-- Settles O2: OP and CH of the word are the command's and RSV is 0, so the word is their sum. -/
theorem encodeDecodeRoundTrip : Obligations.EncodeDecodeRoundTrip := by
  intro m w i hdec
  obtain ⟨hexists, hop, hch, hrsv⟩ := (decodeWord_eq_command_iff m w i).1 hdec
  have hlt : i.channel < 16 := hch ▸ (chField w).isLt
  refine ⟨(wf_iff m i).2 ⟨channelFits_of_lt hlt, hexists⟩, BitVec.eq_of_toNat_eq ?_⟩
  have hw : w.toNat = i.opcode + 16 * i.channel := by
    rw [toNat_eq_fields, hop, hch, hrsv]
    rfl
  rw [encode, BitVec.toNat_ofNat, ← hw, Nat.mod_eq_of_lt w.isLt]

/-- Settles O3: each word written out in 95_test_vectors.md is the encoding of its command, and so
decodes to it. -/
theorem specWordsDecode : Obligations.SpecWordsDecode :=
  ⟨decodeEncodeRoundTrip .ctc .init rfl, decodeEncodeRoundTrip .ctc .setPeriod rfl,
    decodeEncodeRoundTrip .sym .start rfl, decodeEncodeRoundTrip .sym .read rfl,
    decodeEncodeRoundTrip .sym (.pwmSetDuty 3) rfl,
    decodeEncodeRoundTrip .sym (.pwmEnable 15) rfl,
    decodeEncodeRoundTrip .sym (.pwmDisable 1) rfl⟩

end Sys2Proof.Proofs
end

section
/-! PROOFS. Which steps there are: the register map and the admitted accesses (R49, R60 to R68), the
agents' enabling conditions (R13, R210, R220 to R222), and the steps that a schedule names. -/

namespace Sys2Proof.Proofs

open Sys2Proof Sys2Proof.Machine

/-! ### The register map -/

/-- R63: a register stands at no offset but its own, and CMP for channels below NCH only. -/
theorem regAt_eq_some {p : Params} {off : Nat} {reg : Reg} (h : regAt p off = some reg) :
    off = regOffset reg ∧ ∀ ch, reg = .cmp ch → ch < p.nch := by
  unfold regAt at h
  split at h
  case h_12 =>
    split at h
    case isTrue hcmp =>
      obtain ⟨hge, halign, hch⟩ := hcmp
      cases h
      refine ⟨by simp only [regOffset]; omega, fun ch hreg => ?_⟩
      cases hreg
      exact hch
    case isFalse => cases h
  all_goals
    cases h
    exact ⟨rfl, nofun⟩

/-- Settles O51: the offsets are R49's by definition; a register is found at its offset, and an
offset that holds one is that register's. -/
theorem registerMapOffsets : Obligations.RegisterMapOffsets :=
  ⟨⟨rfl, rfl, rfl, rfl, rfl, rfl, rfl, rfl, rfl, rfl, rfl, fun _ => rfl, fun _ _ => rfl⟩,
    fun _ hp => ⟨fun _ => regAt_regOffset (paramsOk_facts hp).channels,
      fun _ _ => regAt_eq_some⟩⟩

/-- An admitted access is one of a whole word at the address of a register of the map. -/
theorem regAddr_of_resolveAccess {p : Params} {addr width : Nat} {reg : Reg}
    (h : resolveAccess p addr width = .ok reg) : width = 4 ∧ addr = regAddr p reg := by
  obtain ⟨hwidth, hbase, _, _, hreg⟩ := resolveAccess_eq_ok h
  obtain ⟨hoff, _⟩ := regAt_eq_some hreg
  exact ⟨hwidth, by rw [regAddr]; omega⟩

/-! ### Accesses that are not admitted -/

theorem resolveAccess_of_width {p : Params} {a n : Nat} (hn : n ≠ 4) :
    resolveAccess p a n = .error .accessWidth :=
  if_pos hn

section
variable {p : Params} {off : Nat}

theorem resolveAccess_of_outside {a : Nat} (h : a < p.base ∨ p.base + 128 ≤ a) :
    resolveAccess p a 4 = .error .outsideWindow := by
  simp [resolveAccess, h]

variable (hoff : off < 128)
include hoff

theorem resolveAccess_of_misaligned (h : off % 4 ≠ 0) :
    resolveAccess p (p.base + off) 4 = .error .misaligned := by
  simp [resolveAccess, hoff, h]

theorem resolveAccess_of_unmapped (halign : off % 4 = 0) (h : regAt p off = none) :
    resolveAccess p (p.base + off) 4 = .error .unmapped := by
  simp [resolveAccess, hoff, halign, h]

end

/-- The gaps of R49: between OCE and the first CMP, and from CMP of channel NCH on. -/
theorem regAt_of_gap {p : Params} {off : Nat} (hge : 0x2C ≤ off)
    (hgap : off < 0x40 ∨ 0x40 + 4 * p.nch ≤ off) : regAt p off = none := by
  cases h : regAt p off with
  | none => rfl
  | some reg =>
    obtain ⟨hoff, hch⟩ := regAt_eq_some h
    cases reg
    case cmp ch =>
      have := hch ch rfl
      simp only [regOffset] at hoff
      omega
    all_goals
      simp only [regOffset] at hoff
      omega

section
variable {s : State} {op : HostOp} {rest : List HostOp} {ts : List Turn} {a n : Nat} {v : Word}
  (hp : paramsOk s.par = true) (hs : s.sched = .host :: ts) (hprog : s.prog = op :: rest)
include hp hs hprog

theorem step_of_inadmissible {f : Fault} (hop : op = .read a n ∨ op = .write a n v)
    (h : resolveAccess s.par a n = .error f) : step s = .fault f := by
  rcases hop with rfl | rfl
  all_goals simp [step_of_host hp hs hprog, hostAccess, h]

theorem step_of_write_busy {reg : Reg} (hop : op = .write (regAddr s.par reg) 4 v)
    (hreg : ∀ ch, reg = .cmp ch → ch < s.par.nch) (hb : s.busyOp ≠ .none) :
    step s = .fault .writeWhileBusy := by
  have hbusy : busy { s with sched := ts } = true := (busy_eq_true_iff _).2 hb
  subst hop
  simp [step_of_host hp hs hprog, hostAccess, resolveAccess_regAddr hp hreg, hbusy]

end

/-- Settles O47: the first four stops are those of `resolveAccess`, in its order; the fifth is the
write's own. -/
theorem inadmissibleAccessesAreStuck : Obligations.InadmissibleAccessesAreStuck := by
  intro s op rest ts a n v hp hs hprog hop
  have stuck {f : Fault} (h : resolveAccess s.par a n = .error f) : step s = .fault f :=
    step_of_inadmissible hp hs hprog hop h
  refine ⟨fun hn => stuck (resolveAccess_of_width hn), ?outside, ?misaligned, ?unmapped,
    fun reg hw hreg hb => step_of_write_busy hp hs hprog hw hreg hb⟩
  case outside =>
    rintro rfl hout
    exact stuck (resolveAccess_of_outside hout)
  case misaligned =>
    rintro off rfl rfl hoff halign
    exact stuck (resolveAccess_of_misaligned hoff halign)
  case unmapped =>
    rintro off rfl rfl hoff halign hge hgap
    exact stuck (resolveAccess_of_unmapped hoff halign (regAt_of_gap hge hgap))

/-! ### The host's step -/

/-- Settles O31: every command answers, and a PWM command in the CTC family as its illegal word. -/
theorem everyCommandAnswers : Obligations.EveryCommandAnswers := by
  refine ⟨fun s i => ?_, fun _ _ => exec_pwm_of_ctc⟩
  obtain ⟨t, h, _⟩ := exec_answers i s
  exact ⟨t, h⟩

theorem issue_answers (w : Word) (s : State) : ∃ t, issue w s = .next t := by
  cases hdec : decodeWord s.par.mode w with
  | command i =>
    obtain ⟨t, h, _⟩ := exec_answers i s
    exact ⟨t, (issue_of_command hdec).trans h⟩
  | illegal why => exact ⟨_, issue_of_illegal hdec⟩

/-- An admitted write is never stuck (R67). -/
theorem writeReg_answers (v : Word) (s : State) (reg : Reg) : ∃ t, writeReg v s reg = .next t := by
  cases reg
  case cmd => exact issue_answers v s
  all_goals exact ⟨_, rfl⟩

theorem hostStep_answers_iff (s : State) :
    (∃ t, hostStep s = .next t) ↔ hostEnabled s = true := by
  unfold hostStep hostEnabled
  cases s.prog with
  | nil => simp
  | cons op rest =>
    cases op with
    | read addr width =>
      cases h : resolveAccess s.par addr width <;> simp [hostAccess, h, Except.toOption]
    | write addr width v =>
      cases h : resolveAccess s.par addr width with
      | error f => simp [hostAccess, h, Except.toOption]
      | ok reg =>
        cases hb : busy s
        · simpa [hostAccess, h, Except.toOption, hb] using
            writeReg_answers v { s with prog := rest } reg
        · simp [hostAccess, h, Except.toOption, hb]
    | poll => simp [hostAccess]

/-! ### The agents' steps -/

theorem guarded_answers_iff {b : Bool} {t : State} {f : Fault} :
    (∃ u, (if b then .next t else .fault f : Host.Outcome State Fault Refusal) = .next u) ↔
      b = true := by
  cases b <;> simp

/-- R13: an agent has a step exactly where it is enabled. -/
theorem takeTurn_answers_iff (a : Turn) (s : State) :
    (∃ t, takeTurn a s = .next t) ↔ turnEnabled s a = true := by
  cases a
  case host => exact hostStep_answers_iff s
  all_goals exact guarded_answers_iff

/-- No enabling condition looks at the schedule or at the free-value index. -/
theorem turnEnabled_consumeTurn (s : State) (a : Turn) :
    turnEnabled (consumeTurn s) a = turnEnabled s a := by
  rcases consumeTurn_cases s with ⟨ts, h⟩ | h
  all_goals
    rw [h]
    cases a <;> rfl

theorem step_of_turn {s : State} {a : Turn} (hp : paramsOk s.par = true)
    (h : nextTurn s = some a) : step s = takeTurn a (consumeTurn s) := by
  simp [step, hp, agentStep, h]

theorem step_of_no_turn {s : State} (hp : paramsOk s.par = true) (h : nextTurn s = none) :
    step s = .next s := by
  simp [step, hp, agentStep, h]

theorem nextTurn_of_sched {s : State} {a : Turn} {ts : List Turn} (hs : s.sched = a :: ts) :
    nextTurn s = some a := by
  simp [nextTurn, hs]

theorem nextTurn_of_nil {s : State} (hs : s.sched = []) : nextTurn s = freeTurn s := by
  simp [nextTurn, hs]

theorem step_answers_iff {s : State} {a : Turn} (hp : paramsOk s.par = true)
    (h : nextTurn s = some a) : (∃ t, step s = .next t) ↔ turnEnabled s a = true := by
  rw [step_of_turn hp h, takeTurn_answers_iff, turnEnabled_consumeTurn]

/-- Settles O10: a named agent steps where it is enabled; on an empty schedule the free choice is an
enabled agent, or the machine stands still. -/
theorem stepExistsWhenEnabled : Obligations.StepExistsWhenEnabled := by
  refine ⟨fun s a ts hp hs => step_answers_iff hp (nextTurn_of_sched hs), fun s hp hs => ?_⟩
  cases hfree : freeTurn s with
  | none => exact ⟨s, step_of_no_turn hp ((nextTurn_of_nil hs).trans hfree)⟩
  | some a =>
    exact (step_answers_iff hp ((nextTurn_of_nil hs).trans hfree)).2 (freeTurn_enabled hfree)

theorem freeTurn_eq_none {s : State} (h : ∀ a, turnEnabled s a = false) : freeTurn s = none := by
  cases hfree : freeTurn s with
  | none => rfl
  | some a => cases (h a).symm.trans (freeTurn_enabled hfree)

theorem turnEnabled_resetOf (p : Params) (a : Turn) :
    turnEnabled (State.resetOf p) a = false := by
  cases a <;> rfl

/-- Settles O8: no agent is enabled at reset, so the free choice finds none. -/
theorem resetIsQuiet : Obligations.ResetIsQuiet := fun p hp =>
  ⟨rfl, rfl, rfl, rfl, step_of_no_turn hp
    ((nextTurn_of_nil rfl).trans (freeTurn_eq_none (turnEnabled_resetOf p)))⟩

section
variable {s : State} {ts : List Turn} (hp : paramsOk s.par = true)
include hp

theorem step_of_counter (hs : s.sched = .counter :: ts) :
    step s = if tickEnabled s then .next (tick { s with sched := ts }) else .fault .tickDisabled :=
  step_of_sched hp hs

theorem step_of_callbackReturn (hs : s.sched = .callbackReturn :: ts) :
    step s = if returnEnabled s then .next (callbackReturn { s with sched := ts })
      else .fault .returnDisabled :=
  step_of_sched hp hs

end

/-- Settles O35, by whether the tick is enabled. -/
theorem counterTurnTicks : Obligations.CounterTurnTicks := by
  intro s ts hp hs
  rw [step_of_counter hp hs]
  refine ⟨fun hrun => if_pos ((tickEnabled_iff s).2 hrun), fun hstop t => ?_⟩
  rw [if_neg fun h => (tickEnabled_iff s).1 h hstop]
  exact nofun

/-- Settles O42, by whether the return is enabled. -/
theorem callbackReturnStep : Obligations.CallbackReturnStep := by
  intro s ts hp hs
  rw [← returnEnabled_iff, step_of_callbackReturn hp hs]
  refine ⟨fun h => if_pos h, fun h t => ?_⟩
  rw [if_neg h]
  exact nofun

/-! ### The host's command and its poll -/

theorem step_of_command {s : State} {w : Word} {i : Instr} {rest : List HostOp} {ts : List Turn}
    (hp : paramsOk s.par = true) (hidle : s.busyOp = .none) (hs : s.sched = .host :: ts)
    (hprog : s.prog = .write s.par.base 4 w :: rest) (hdec : decodeWord s.par.mode w = .command i) :
    step s = exec i { s with sched := ts, prog := rest } :=
  (step_of_write (reg := .cmd) hp hs (by simp) hidle hprog).trans (issue_of_command hdec)

/-- Settles O5: the second clause is the first one for the state that `withFetchWord` builds. -/
theorem stepRunsDecodedCommand : Obligations.StepRunsDecodedCommand := by
  refine ⟨fun s w i rest ts => step_of_command, fun s w i hp hdec => ?_⟩
  have hword : BitVec.ofNat 32 (w % 2 ^ 32) = BitVec.ofNat 32 w :=
    BitVec.eq_of_toNat_eq (by simp)
  rw [← hword] at hdec
  exact step_of_command (s := s.withFetchWord 32 w) hp rfl rfl rfl hdec

theorem hostAccess_poll (rest : List HostOp) (s : State) :
    hostAccess .poll rest s = .next { s with
      prog := if s.busyOp = .none then rest else s.prog
      trace := s.trace ++ [.readData (regAddr s.par .status) (statusWord s)] } := by
  by_cases hidle : s.busyOp = .none
  all_goals simp [hostAccess, busy, hidle, State.emit]

/-- Settles O49, by the poll's access. -/
theorem pollRepeatsWhileBusy : Obligations.PollRepeatsWhileBusy := by
  intro s rest ts hp hs hprog
  rw [step_of_host hp hs hprog]
  exact hostAccess_poll rest { s with sched := ts }

end Sys2Proof.Proofs
end

section
/-! PROOFS. The words that the registers read as (R47, R49): each field of STATUS and CTRL by
dividing the number that the word is made of, and the bits of OCE. -/

namespace Sys2Proof.Proofs

open Sys2Proof Sys2Proof.Machine

/-! ### The fields of a word that is made of a number -/

theorem toNat_field_ofNat {n : Nat} (h : n < 2 ^ 32) (start len : Nat) :
    ((BitVec.ofNat 32 n).extractLsb' start len).toNat = n / 2 ^ start % 2 ^ len := by
  rw [BitVec.extractLsb'_toNat, BitVec.toNat_ofNat, Nat.mod_eq_of_lt h, Nat.shiftRight_eq_div_pow]

theorem getLsbD_ofNat_of_bit {n k : Nat} {b : Bool} (hk : k < 32) (h : n / 2 ^ k % 2 = b.toNat) :
    (BitVec.ofNat 32 n).getLsbD k = b := by
  rw [BitVec.getLsbD_ofNat, decide_eq_true hk, Bool.true_and, Nat.testBit_eq_decide_div_mod_eq, h]
  cases b <;> rfl

theorem toNat_ofNat_of_lt {n : Nat} (h : n < 2 ^ 32) : (BitVec.ofNat 32 n).toNat = n := by
  rw [BitVec.toNat_ofNat, Nat.mod_eq_of_lt h]

/-! ### STATUS -/

theorem causeCode_lt (c : Cause) : causeCode c < 4 := by
  cases c <;> decide

theorem timerStateCode_lt (t : TimerState) : timerStateCode t < 8 := by
  cases t <;> decide

/-- Settles O50: STATUS is the sum of its fields, each a code below the next field's weight. -/
theorem statusRegisterFields : Obligations.StatusRegisterFields := by
  intro s
  have hbusy := (busy s).toNat_lt
  have hfail := s.fail.toNat_lt
  have hcause := causeCode_lt s.cause
  have hstate := timerStateCode_lt s.tstate
  simp only [readReg, statusWord]
  refine ⟨?busy, ?fail, ?cause, ?state, BitVec.eq_of_toNat_eq ?rest⟩
  case busy => exact getLsbD_ofNat_of_bit (b := busy s) (by decide) (by omega)
  case fail => exact getLsbD_ofNat_of_bit (by decide) (by omega)
  case cause =>
    calc _ = causeCode s.cause := by rw [toNat_field_ofNat (by omega)]; omega
      _ = _ := by cases s.cause <;> rfl
  case state =>
    calc _ = timerStateCode s.tstate := by rw [toNat_field_ofNat (by omega)]; omega
      _ = _ := by cases s.tstate <;> rfl
  case rest =>
    rw [toNat_field_ofNat (by omega)]
    simp only [BitVec.ofNat_eq_ofNat, BitVec.toNat_ofNat]
    omega

/-! ### CTRL, OCE and the values -/

theorem modeCode_eq_toNat (m : Mode) : modeCode m = (decide (m = .sym)).toNat := by
  cases m <;> rfl

theorem ite_eq_toNat_decide (c : Prop) [Decidable c] :
    (if c then 1 else 0) = (decide c).toNat := by
  by_cases h : c <;> simp [h]

/-- Bit `k` of the number of a list of bits is the list's element `k`, and 0 beyond its end. -/
theorem testBit_bitsValue (bs : List Bool) (k : Nat) :
    (bitsValue bs).testBit k = bs.getD k false := by
  induction bs generalizing k with
  | nil => simp [bitsValue]
  | cons b bs ih =>
    cases k with
    | zero => cases b <;> simp [bitsValue, Nat.testBit_zero]
    | succ k =>
      have hhalf : (b.toNat + 2 * bitsValue bs) / 2 = bitsValue bs := by
        have := b.toNat_lt
        omega
      rw [bitsValue, Nat.testBit_succ, hhalf, ih, List.getD_cons_succ]

section
variable {s : State} (h : Inv s)
include h

theorem maxTop_lt : maxTop s.par < 2 ^ 32 := by
  rcases (paramsOk_facts h.params).resolution with hr | hr
  all_goals
    rw [maxTop, hr]
    decide

theorem cmpAt_le {ch : Nat} (hch : ch < s.par.nch) : cmpAt s ch ≤ maxTop s.par := by
  have hlt : ch < s.cmp.length := h.cmp_length.symm ▸ hch
  rw [cmpAt, List.getD_eq_getElem _ _ hlt]
  exact h.cmp_le _ (List.getElem_mem hlt)

/-- R49: CTRL is the sum of its fields, each within its width in a state of the invariant. -/
theorem ctrlWord_fields :
    ((ctrlWord s).extractLsb' 0 3).toNat = s.csSel ∧
    ((ctrlWord s).extractLsb' 3 3).toNat = s.csHw ∧
    (ctrlWord s).getLsbD 6 = s.ie ∧ (ctrlWord s).getLsbD 7 = s.pend ∧
    (ctrlWord s).getLsbD 8 = decide (s.par.mode = .sym) ∧
    (ctrlWord s).getLsbD 9 = decide (s.par.r = 16) ∧
    ((ctrlWord s).extractLsb' 10 4).toNat = s.par.nch ∧
    ((ctrlWord s).extractLsb' 14 3).toNat = nCodes s.par ∧
    (ctrlWord s).extractLsb' 17 15 = 0 := by
  have hf := paramsOk_facts h.params
  have hcodes := hf.nCodes_le
  have hchannels := hf.channels
  have hsel := h.csSel_le
  have hhw := h.csHw_le
  have hie := s.ie.toNat_lt
  have hpend := s.pend.toNat_lt
  have hmode := (decide (s.par.mode = .sym)).toNat_lt
  have hres := (decide (s.par.r = 16)).toNat_lt
  rw [ctrlWord, modeCode_eq_toNat, ite_eq_toNat_decide]
  refine ⟨?csSel, ?csHw, ?ie, ?pend, ?mode, ?resolution, ?nch, ?codes, BitVec.eq_of_toNat_eq ?rest⟩
  case ie | pend | mode | resolution =>
    exact getLsbD_ofNat_of_bit (by decide) (by omega)
  case rest =>
    rw [toNat_field_ofNat (by omega)]
    simp only [BitVec.ofNat_eq_ofNat, BitVec.toNat_ofNat]
    omega
  all_goals
    rw [toNat_field_ofNat (by omega)]
    omega

/-- R49: OCE shows the enable bits of the channels below NCH and 0 above them. -/
theorem readReg_oce_bit {k : Nat} (hk : k < 32) :
    (readReg s .oce).getLsbD k = (decide (k < s.par.nch) && oceAt s k) := by
  rw [readReg, BitVec.getLsbD_ofNat, decide_eq_true hk, Bool.true_and, testBit_bitsValue, oceAt]
  by_cases hch : k < s.par.nch
  · rw [decide_eq_true hch, Bool.true_and]
  · have hlen : s.oce.length ≤ k := h.oce_length ▸ Nat.not_lt.1 hch
    rw [decide_eq_false hch, Bool.false_and, List.getD_eq_default _ _ hlen]

end

/-- Settles O52: the registers that read as they are, by definition; CTRL by its fields, OCE by its
bits, and the values of R bits because they fit a word. -/
theorem controlAndChannelWords : Obligations.ControlAndChannelWords := by
  refine ⟨fun s => ⟨rfl, rfl, rfl, rfl, rfl, rfl⟩, fun s h => ?_⟩
  obtain ⟨hsel, hhw, hie, hpend, hmode, hres, hnch, hcodes, hrest⟩ := ctrlWord_fields h
  have hmax := maxTop_lt h
  exact ⟨hsel, hhw, hie, hpend, hmode, hres, hnch, hcodes, hrest,
    fun k => readReg_oce_bit h,
    toNat_ofNat_of_lt (h.top_le.trans_lt hmax), toNat_ofNat_of_lt (h.cnt_le.trans_lt hmax),
    fun ch hch => toNat_ofNat_of_lt ((cmpAt_le h hch).trans_lt hmax)⟩

end Sys2Proof.Proofs
end

section
/-! PROOFS. What a command and a step can do, said once: one case per meaning of a command (R85) and
per agent (R13). The rules over all steps go through these cases. -/

namespace Sys2Proof.Proofs

open Sys2Proof Sys2Proof.Machine

/-! ### What a command can do -/

/-- The channel files after a PWM command with TOP at `top`: no channel is lost, and a new compare
value is at most `top` (R43, R44, R180). -/
structure ChannelFiles (s : State) (top : Nat) (oce : List Bool) (cmp : List Nat) : Prop where
  oce_length : oce.length = s.oce.length
  cmp_length : cmp.length = s.cmp.length
  cmp_le : ∀ v ∈ cmp, v ∈ s.cmp ∨ v ≤ top

/-- Everything a command can do, in the order of R85: it fails and writes its cause, or it writes
what its rule says. `u` is the state with the period that PWM_ENABLE has selected, if any. -/
inductive ExecCase (s : State) : Instr → State → Prop where
  | fails (i : Instr) {cause : Cause} (hcause : cause ≠ .none) :
      ExecCase s i { s with fail := true, cause := cause }
  | init (h : s.tstate = .uninitialized) (cb : Word) {fail : Bool} {cause : Cause}
      (hresult : fail = false ↔ cause = .none) :
      ExecCase s .init { s with
        top := (select s.par s.arg0.toNat).top, csSel := (select s.par s.arg0.toNat).cs
        cb := cb, tstate := .ready, fail := fail, cause := cause }
  | setPeriod {fail : Bool} {cause : Cause} (hresult : fail = false ↔ cause = .none) :
      ExecCase s .setPeriod
        { s.setSelection (select s.par s.arg0.toNat) with fail := fail, cause := cause }
  | startWaits (h : s.tstate = .ready ∨ s.tstate = .stopped)
      (hg : s.par.mode = .sym ∧ s.cb ≠ 0 ∧ s.csSel ≠ 0) :
      ExecCase s .start { s with
        ie := false, cnt := 0, dir := .up, csHw := s.csSel, fresh := true, busyOp := .startGuard }
  | startRuns (h : s.tstate = .ready ∨ s.tstate = .stopped)
      (hg : ¬(s.par.mode = .sym ∧ s.cb ≠ 0 ∧ s.csSel ≠ 0)) :
      ExecCase s .start { s with
        cnt := 0, dir := .up, csHw := s.csSel
        fresh := if s.par.mode = .sym then true else s.fresh
        ie := decide (s.cb ≠ 0), tstate := .running, fail := false, cause := .none }
  | stop : ExecCase s .stop { s with
      csHw := 0, tstate := .stopped, fail := false, cause := .none }
  | resume (h : s.tstate = .stopped) : ExecCase s .resume { s with
      csHw := s.csSel, tstate := .running, fail := false, cause := .none }
  | attach (h : s.arg0 ≠ 0) : ExecCase s .attach { s with
      cb := s.arg0, ie := if s.tstate = .running then true else s.ie
      fail := false, cause := .none }
  | detach : ExecCase s .detach { s with
      cb := 0, ie := if s.tstate = .running then false else s.ie
      fail := false, cause := .none }
  | readWaits (h : s.tstate = .running ∨ s.tstate = .stopped)
      (hp : s.par.mode = .sym ∧ s.csHw ≠ 0) :
      ExecCase s .read { s with v1 := s.cnt, busyOp := .readProbe }
  | readDelivers (h : s.tstate = .running ∨ s.tstate = .stopped)
      (hp : s.par.mode = .ctc ∨ s.csHw = 0) :
      ExecCase s .read { s with
        data := BitVec.ofNat 32 (toUs s.par s.cnt s.csSel), fail := false, cause := .none }
  | channel {i : Instr} (hpwm : i.isPwm = true) {u : State}
      (hu : u = s ∨ ∃ period, u = s.setSelection (select s.par period))
      {oce : List Bool} {cmp : List Nat} (hfiles : ChannelFiles s u.top oce cmp)
      {fail : Bool} {cause : Cause} (hresult : fail = false ↔ cause = .none) :
      ExecCase s i { u with oce := oce, cmp := cmp, fail := fail, cause := cause }

/-- Writing one compare value of a duty in range adds nothing above TOP (R180). -/
theorem mem_set_duty {p : Params} {cmp : List Nat} {ch top d v : Nat} (hd : d ≤ 2 ^ p.r)
    (hv : v ∈ cmp.set ch (dutyToCmp p top d)) : v ∈ cmp ∨ v ≤ top := by
  refine (List.mem_or_eq_of_mem_set hv).imp_right ?_
  rintro rfl
  exact dutyToCmp_le_of_le hd

theorem channelFiles_of_set (s : State) (top ch d : Nat) (b : Bool) :
    ChannelFiles s top (s.oce.set ch b)
      (if d ≤ 2 ^ s.par.r then s.cmp.set ch (top * d / 2 ^ s.par.r) else s.cmp) where
  oce_length := List.length_set
  cmp_length := by split <;> simp
  cmp_le v hv := by
    split at hv
    case isTrue hd => exact mem_set_duty hd hv
    case isFalse => exact .inl hv

section
variable {s t : State} {ch : Nat} (hm : s.par.mode = .sym)
include hm

theorem execCase_pwmEnable (h : exec (.pwmEnable ch) s = .next t) :
    ExecCase s (.pwmEnable ch) t := by
  cases hc : configured s
  case false =>
    cases h.symm.trans (exec_pwmEnable_of_not_configured hm hc)
    exact .fails _ (by simp)
  by_cases hch : s.par.nch ≤ ch
  case pos =>
    cases h.symm.trans (exec_unrecognisedChannel rfl hm hch hc)
    exact .fails _ (by simp)
  by_cases hp : s.arg1 = 0
  case pos =>
    cases h.symm.trans (exec_pwmEnable_of_no_override hm hc (Nat.not_le.1 hch) hp)
    exact .channel rfl (.inl rfl) (channelFiles_of_set s s.top ch _ true) (by simp)
  case neg =>
    cases h.symm.trans (exec_pwmEnable_of_override hm hc (Nat.not_le.1 hch) hp rfl)
    exact .channel (u := s.setSelection (select s.par s.arg1.toNat)) rfl (.inr ⟨_, rfl⟩)
      (channelFiles_of_set s _ ch _ true) (by simp)

theorem execCase_pwmDisable (h : exec (.pwmDisable ch) s = .next t) :
    ExecCase s (.pwmDisable ch) t := by
  by_cases hch : s.par.nch ≤ ch
  case pos =>
    cases h.symm.trans (exec_pwmDisable_of_unrecognised hm hch)
    exact .fails _ (by simp)
  case neg =>
    cases h.symm.trans (exec_pwmDisable_of_recognised hm hch)
    exact .channel (oce := s.oce.set ch false) (cmp := s.cmp) rfl (.inl rfl)
      ⟨List.length_set, rfl, fun _ hv => .inl hv⟩ (by simp)

theorem execCase_pwmSetDuty (h : exec (.pwmSetDuty ch) s = .next t) :
    ExecCase s (.pwmSetDuty ch) t := by
  cases hc : configured s
  case false =>
    cases h.symm.trans (exec_pwmSetDuty_of_not_configured hm hc)
    exact .fails _ (by simp)
  by_cases hch : s.par.nch ≤ ch
  case pos =>
    cases h.symm.trans (exec_unrecognisedChannel rfl hm hch hc)
    exact .fails _ (by simp)
  by_cases hd : s.arg0.toNat ≤ 2 ^ s.par.r
  case pos =>
    cases h.symm.trans (exec_pwmSetDuty_of_inRange hm hc (Nat.not_le.1 hch) hd)
    exact .channel (oce := s.oce) (u := s) rfl (.inl rfl)
      ⟨rfl, List.length_set, fun v hv => mem_set_duty hd hv⟩ (by simp)
  case neg =>
    cases h.symm.trans
      (exec_pwmSetDuty_of_outOfRange hm hc (Nat.not_le.1 hch) (Nat.not_le.1 hd))
    exact .fails _ (by simp)

end

/-- Every command falls in the cases of its rule. -/
theorem execCase_of_exec {i : Instr} {s t : State} (h : exec i s = .next t) : ExecCase s i t := by
  cases hx : i.existsIn s.par.mode
  case false =>
    obtain ⟨hm, hpwm⟩ := (existsIn_eq_false_iff _ _).1 hx
    cases h.symm.trans (exec_pwm_of_ctc hm hpwm)
    exact .fails _ (by simp)
  cases hl : legalIn i s.tstate
  case false =>
    cases h.symm.trans (exec_of_illegalState hx hl)
    exact .fails _ (by simp)
  cases i
  case init =>
    have hu : s.tstate = .uninitialized := by simpa [legalIn] using hl
    cases h.symm.trans (exec_init_of_uninitialized hu)
    exact .init hu _ (by simp)
  case setPeriod =>
    cases h.symm.trans (exec_setPeriod s)
    exact .setPeriod (by simp)
  case start =>
    have hs : s.tstate = .ready ∨ s.tstate = .stopped := by simpa [legalIn] using hl
    by_cases hg : s.par.mode = .sym ∧ s.cb ≠ 0 ∧ s.csSel ≠ 0
    · cases h.symm.trans (exec_start_of_guard hs hg)
      exact .startWaits hs hg
    · cases h.symm.trans (exec_start_of_no_guard hs hg)
      exact .startRuns hs hg
  case stop =>
    cases h.symm.trans (exec_stop s)
    exact .stop
  case resume =>
    have hs : s.tstate = .stopped := by simpa [legalIn] using hl
    cases h.symm.trans (exec_resume_of_stopped hs)
    exact .resume hs
  case attach =>
    by_cases h0 : s.arg0 = 0
    · cases h.symm.trans (exec_attach_of_zero h0)
      exact .fails _ (by simp)
    · cases h.symm.trans (exec_attach_of_ne_zero h0)
      exact .attach h0
  case detach =>
    cases h.symm.trans (exec_detach s)
    exact .detach
  case read =>
    have hs : s.tstate = .running ∨ s.tstate = .stopped := by simpa [legalIn] using hl
    by_cases hp : probeApplies s = true
    · cases h.symm.trans (exec_read_of_probe hs hp)
      exact .readWaits hs ((probeApplies_iff s).1 hp)
    · cases h.symm.trans (exec_read_of_no_probe hs hp)
      refine .readDelivers hs ?_
      cases hm : s.par.mode <;> simp_all [probeApplies_iff]
  case pwmEnable => exact execCase_pwmEnable (mode_of_pwm_existsIn hx rfl) h
  case pwmDisable => exact execCase_pwmDisable (mode_of_pwm_existsIn hx rfl) h
  case pwmSetDuty => exact execCase_pwmSetDuty (mode_of_pwm_existsIn hx rfl) h

/-! ### What a step can do -/

/-- Everything a step can do, agent by agent (R13): `prog`, `sched` and `idx` are what the turn
leaves of the inputs and of the free values. -/
inductive StepCase (s t : State) : Prop where
  | still (hturn : nextTurn s = none) (ht : t = s)
  | hostReads (hturn : nextTurn s = some .host) (a : Nat) (v : Word) (prog : List HostOp)
      (sched : List Turn) (idx : Nat)
      (ht : t = { s with
        trace := s.trace ++ [.readData a v], prog := prog, sched := sched, freeIdx := idx })
  | hostWrites (hturn : nextTurn s = some .host) (hidle : s.busyOp = .none) (x y : Word)
      (prog : List HostOp) (sched : List Turn) (idx : Nat)
      (ht : t = { s with arg0 := x, arg1 := y, prog := prog, sched := sched, freeIdx := idx })
  | illegal (hturn : nextTurn s = some .host) (hidle : s.busyOp = .none)
      (prog : List HostOp) (sched : List Turn) (idx : Nat)
      (ht : t = { s with
        fail := true, cause := .invalidArgument, prog := prog, sched := sched, freeIdx := idx })
  | command (hturn : nextTurn s = some .host) (hidle : s.busyOp = .none) (i : Instr) (w : Word)
      (rest : List HostOp) (sched : List Turn) (idx : Nat)
      (hprog : s.prog = .write s.par.base 4 w :: rest)
      (hdec : decodeWord s.par.mode w = .command i)
      (hexec : exec i { s with prog := rest, sched := sched, freeIdx := idx } = .next t)
  | ticks (hturn : nextTurn s = some .counter) (hrun : s.csHw ≠ 0) (sched : List Turn) (idx : Nat)
      (ht : t = tick { s with sched := sched, freeIdx := idx })
  | latches (hturn : nextTurn s = some .latch) (sched : List Turn) (idx : Nat)
      (hcond : s.pend = true ∧ s.ie = true ∧ s.busyOp = .none ∧ s.inflight = 0)
      (ht : t = { s with
        pend := false, inflight := if s.cb ≠ 0 then s.cb else 0, sched := sched, freeIdx := idx })
  | invokes (hturn : nextTurn s = some .invoke) (sched : List Turn) (idx : Nat)
      (hcond : s.inflight ≠ 0 ∧ s.active = false ∧ s.busyOp = .none)
      (ht : t = { s with
        trace := s.trace ++ [.callback s.inflight], active := true, inflight := 0
        sched := sched, freeIdx := idx })
  | returns (hturn : nextTurn s = some .callbackReturn) (sched : List Turn) (idx : Nat)
      (hcond : s.active = true ∧ s.busyOp = .none)
      (ht : t = { s with active := false, sched := sched, freeIdx := idx })

theorem consumeTurn_eq (s : State) :
    ∃ sched idx, consumeTurn s = { s with sched := sched, freeIdx := idx } := by
  rcases consumeTurn_cases s with ⟨ts, h⟩ | h
  · exact ⟨ts, s.freeIdx, h⟩
  · exact ⟨s.sched, s.freeIdx + 1, h⟩

/-- The host's step with the access that it makes: a word given to the host, or, where BUSY = 0, the
write of a register at its address. -/
theorem hostStep_access {s t : State} (h : hostStep s = .next t) :
    (∃ a v prog, t = { s with trace := s.trace ++ [.readData a v], prog := prog }) ∨
    (s.busyOp = .none ∧ ∃ v rest reg, s.prog = .write (regAddr s.par reg) 4 v :: rest ∧
      writeReg v { s with prog := rest } reg = .next t) := by
  unfold hostStep at h
  split at h
  case h_1 => cases h
  case h_2 op rest hprog =>
    cases op with
    | read addr width =>
      simp only [hostAccess] at h
      split at h
      case h_1 => cases h; exact .inl ⟨_, _, _, rfl⟩
      case h_2 => cases h
    | write addr width v =>
      simp only [hostAccess] at h
      split at h
      case h_1 reg hreg =>
        split at h
        case isTrue => cases h
        case isFalse hbusy =>
          obtain ⟨rfl, rfl⟩ := regAddr_of_resolveAccess hreg
          have hidle := (busy_eq_false_iff s).1 (Bool.eq_false_iff.2 hbusy)
          exact .inr ⟨hidle, v, rest, reg, hprog, h⟩
      case h_2 => cases h
    | poll =>
      rw [hostAccess_poll] at h
      cases h
      exact .inl ⟨_, _, _, rfl⟩

/-- The host's write, by its register (R67). -/
theorem stepCase_of_write {s t : State} (hturn : nextTurn s = some .host)
    (hidle : s.busyOp = .none) {v : Word} {rest : List HostOp} {reg : Reg} (sched : List Turn)
    (idx : Nat) (hprog : s.prog = .write (regAddr s.par reg) 4 v :: rest)
    (h : writeReg v { s with prog := rest, sched := sched, freeIdx := idx } reg = .next t) :
    StepCase s t := by
  cases reg
  case cmd =>
    cases hdec : decodeWord s.par.mode v with
    | command i =>
      have hissue := issue_of_command
        (s := { s with prog := rest, sched := sched, freeIdx := idx }) hdec
      exact .command hturn hidle i v rest sched idx hprog hdec (hissue.symm.trans h)
    | illegal why =>
      cases h.symm.trans (issue_of_illegal hdec)
      exact .illegal hturn hidle _ _ _ rfl
  case arg0 => cases h; exact .hostWrites hturn hidle v s.arg1 _ _ _ rfl
  case arg1 => cases h; exact .hostWrites hturn hidle s.arg0 v _ _ _ rfl
  all_goals
    cases h
    exact .hostWrites hturn hidle s.arg0 s.arg1 _ _ _ rfl

/-- Every step falls in the case of the agent that takes it. -/
theorem stepCase_of_step {s t : State} (h : step s = .next t) : StepCase s t := by
  obtain ⟨_, ⟨hturn, ht⟩ | ⟨a, hturn, h⟩⟩ := step_next h
  · exact .still hturn ht
  obtain ⟨sched, idx, hu⟩ := consumeTurn_eq s
  rw [hu] at h
  rcases takeTurn_next h with ⟨rfl, hhost⟩ | ⟨rfl, hen, ht⟩ | ⟨rfl, hen, ht⟩ | ⟨rfl, hen, ht⟩ |
    ⟨rfl, hen, ht⟩
  · rcases hostStep_access hhost with ⟨a, v, prog, ht⟩ | ⟨hidle, v, rest, reg, hprog, hw⟩
    · exact .hostReads hturn a v prog sched idx ht
    · exact stepCase_of_write hturn hidle sched idx hprog hw
  · exact .ticks hturn ((tickEnabled_iff _).1 hen) sched idx ht
  · obtain ⟨hpend, hie, hidle, hfree⟩ := (latchEnabled_iff _).1 hen
    exact .latches hturn sched idx ⟨hpend, hie, hidle, hfree⟩
      (ht.trans (latch_of_inflight_zero hfree))
  · exact .invokes hturn sched idx ((invokeEnabled_iff _).1 hen) ht
  · exact .returns hturn sched idx ((returnEnabled_iff _).1 hen) ht

/-- The completion of a waiting command writes none of these, and the count neither (R210, R214). -/
theorem tick_frame (s : State) :
    (tick s).par = s.par ∧ (tick s).csSel = s.csSel ∧ (tick s).csHw = s.csHw ∧
    (tick s).top = s.top ∧ (tick s).cb = s.cb ∧ (tick s).inflight = s.inflight ∧
    (tick s).active = s.active ∧ (tick s).trace = s.trace := by
  rcases tick_cases s with ⟨_, h⟩ | ⟨_, h⟩ | ⟨_, h⟩
  all_goals
    rw [h]
    exact ⟨rfl, rfl, rfl, rfl, rfl, rfl, rfl, rfl⟩

end Sys2Proof.Proofs
end

section
/-! PROOFS. The invariant of the state rules holds at reset, and every command, every tick and so
every step keeps it (R32 to R48, R90, R212). -/

namespace Sys2Proof.Proofs

open Sys2Proof Sys2Proof.Machine

/-! ### Reset -/

theorem inv_resetOf {p : Params} (hp : paramsOk p = true) : Inv (State.resetOf p) where
  params := hp
  notInitializing := nofun
  csSel_le := Nat.zero_le _
  csHw_le := Nat.zero_le _
  top_le := Nat.zero_le _
  cnt_le := Nat.zero_le _
  v1_le := Nat.zero_le _
  cmp_le _ hv := (List.eq_of_mem_replicate hv).le.trans (Nat.zero_le _)
  oce_length := length_oce_resetOf p
  cmp_length := length_cmp_resetOf p
  ctc_up _ := rfl
  ctc_notFresh _ := rfl
  down_pos := nofun
  idle_clock _ := rfl
  wait_sym hb := absurd rfl hb
  wait_clock hb := absurd rfl hb
  guard_state := nofun
  probe_state := nofun
  fail_cause := iff_of_true rfl rfl

/-- Settles O7: the reset state of all well-formed parameters, of which `State.reset` is one. -/
theorem resetMeetsInvariant : Obligations.ResetMeetsInvariant :=
  ⟨fun _ => inv_resetOf, inv_resetOf (by decide)⟩

/-! ### Commands -/

section
variable {s : State} (h : Inv s)
include h

/-- Outside a wait the clock runs while Running only (R35). -/
theorem csHw_of_not_running (hidle : s.busyOp = .none) (hs : s.tstate ≠ .running) : s.csHw = 0 := by
  rw [h.idle_clock hidle, if_neg hs, noClk_eq]

section
variable (hidle : s.busyOp = .none)
include hidle

theorem inv_channel {u : State} (hu : u = s ∨ ∃ period, u = s.setSelection (select s.par period))
    {oce : List Bool} {cmp : List Nat} (hfiles : ChannelFiles s u.top oce cmp)
    {fail : Bool} {cause : Cause} (hresult : fail = false ↔ cause = .none) :
    Inv { u with oce := oce, cmp := cmp, fail := fail, cause := cause } := by
  have hinv : Inv u ∧ u.par = s.par ∧ u.oce = s.oce ∧ u.cmp = s.cmp := by
    rcases hu with rfl | ⟨period, rfl⟩
    · exact ⟨h, rfl, rfl, rfl⟩
    · exact ⟨inv_setSelection h hidle period, rfl, rfl, rfl⟩
  obtain ⟨hinv, hpar, hoce, hcmp⟩ := hinv
  exact { hinv with
    oce_length := by rw [hfiles.oce_length, h.oce_length, hpar]
    cmp_length := by rw [hfiles.cmp_length, h.cmp_length, hpar]
    cmp_le := fun v hv => (hfiles.cmp_le v hv).elim (fun hv => hpar ▸ h.cmp_le v hv)
      fun hle => hle.trans hinv.top_le
    fail_cause := hresult }

/-- Every command keeps the invariant; a waiting one begins its wait with the clock running. -/
theorem inv_execCase {i : Instr} {t : State} (hcase : ExecCase s i t) : Inv t := by
  cases hcase with
  | fails _ hcause => exact { h with fail_cause := by simp [hcause] }
  | init hs cb hresult =>
    have hclock := csHw_of_not_running h hidle (by simp [hs])
    exact { h with
      notInitializing := by simp
      top_le := (select_bounds h.params _).2
      csSel_le := (select_bounds h.params _).1
      idle_clock := fun _ => hclock
      wait_clock := fun hb => absurd hidle hb
      guard_state := fun hb => nomatch hidle.symm.trans hb
      probe_state := fun hb => nomatch hidle.symm.trans hb
      fail_cause := hresult }
  | setPeriod hresult => exact { inv_setSelection h hidle _ with fail_cause := hresult }
  | startWaits hs hg =>
    obtain ⟨hm, hcb, hsel⟩ := hg
    exact { h with
      csHw_le := h.csSel_le
      cnt_le := Nat.zero_le _
      ctc_up := fun _ => rfl
      ctc_notFresh := fun hctc => nomatch hm.symm.trans hctc
      down_pos := nofun
      idle_clock := nofun
      wait_sym := fun _ => hm
      wait_clock := fun _ => ⟨rfl, hsel⟩
      guard_state := fun _ => ⟨hs, hcb, rfl, rfl⟩
      probe_state := nofun }
  | startRuns =>
    exact { h with
      notInitializing := by simp
      csHw_le := h.csSel_le
      cnt_le := Nat.zero_le _
      ctc_up := fun _ => rfl
      ctc_notFresh := fun (hctc : s.par.mode = .ctc) => by simp [hctc, h.ctc_notFresh hctc]
      down_pos := nofun
      idle_clock := fun _ => rfl
      wait_clock := fun hb => absurd hidle hb
      guard_state := fun hb => nomatch hidle.symm.trans hb
      probe_state := fun _ => rfl
      fail_cause := iff_of_true rfl rfl }
  | stop =>
    exact { h with
      notInitializing := by simp
      csHw_le := Nat.zero_le _
      idle_clock := fun _ => rfl
      wait_clock := fun hb => absurd hidle hb
      guard_state := fun hb => nomatch hidle.symm.trans hb
      probe_state := fun hb => nomatch hidle.symm.trans hb
      fail_cause := iff_of_true rfl rfl }
  | resume =>
    exact { h with
      notInitializing := by simp
      csHw_le := h.csSel_le
      idle_clock := fun _ => rfl
      wait_clock := fun hb => absurd hidle hb
      guard_state := fun hb => nomatch hidle.symm.trans hb
      probe_state := fun _ => rfl
      fail_cause := iff_of_true rfl rfl }
  | attach =>
    exact { h with
      guard_state := fun hb => nomatch hidle.symm.trans hb
      fail_cause := iff_of_true rfl rfl }
  | detach =>
    exact { h with
      guard_state := fun hb => nomatch hidle.symm.trans hb
      fail_cause := iff_of_true rfl rfl }
  | readWaits hs hp =>
    obtain ⟨hm, hrun⟩ := hp
    have hstate : s.tstate = .running :=
      hs.resolve_right fun hstop => hrun (csHw_of_not_running h hidle (by simp [hstop]))
    have hclock : s.csHw = s.csSel := by rw [h.idle_clock hidle, if_pos hstate]
    exact { h with
      v1_le := h.cnt_le
      idle_clock := nofun
      wait_sym := fun _ => hm
      wait_clock := fun _ => ⟨hclock, hclock ▸ hrun⟩
      guard_state := nofun
      probe_state := fun _ => hstate }
  | readDelivers => exact { h with fail_cause := iff_of_true rfl rfl }
  | channel _ hu hfiles hresult => exact inv_channel h hidle hu hfiles hresult

end

/-! ### The tick -/

/-- The count keeps CNT within R bits, DIR up in CTC, and CNT at least 1 while falling (R211,
R212). -/
theorem count_bounds : (count s).cnt ≤ maxTop s.par ∧
    (s.par.mode = .ctc → (count s).dir = .up) ∧ ((count s).dir = .down → 1 ≤ (count s).cnt) := by
  have htop := h.top_le
  have hcnt := h.cnt_le
  cases hm : s.par.mode
  case ctc =>
    have hup := h.ctc_up hm
    by_cases hmeet : s.cnt = s.top
    · simp [count_ctc_at_top hm hmeet, hup]
    · have hlt := Nat.mod_lt (s.cnt + 1) (Nat.two_pow_pos s.par.r)
      rw [two_pow_eq_maxTop_succ] at hlt
      simp [count_ctc_off_top hm hmeet, hup, two_pow_eq_maxTop_succ]
      omega
  case sym =>
    by_cases hzero : s.top = 0
    · simp [count_sym_top_zero hm hzero]
    by_cases hrise : s.dir = .up ∧ s.cnt < s.top
    · simp [count_sym_rising hm hrise.1 hrise.2]
      omega
    have hpos : 1 ≤ s.cnt := by
      cases hd : s.dir
      · simp [hd] at hrise; omega
      · exact h.down_pos hd
    by_cases hone : s.cnt = 1
    · simp [count_sym_arriving hm hzero hrise hone]
    · simp [count_sym_falling hm hzero hrise (by omega)]
      omega

/-- The tick keeps the invariant: its completion ends the wait Running, with the clock that the wait
ran with (R90, R214). -/
theorem inv_tick : Inv (tick s) := by
  obtain ⟨hcnt, hup, hdown⟩ := count_bounds h
  cases hb : s.busyOp
  case none =>
    rw [tick_of_idle hb]
    exact { h with
      cnt_le := hcnt
      ctc_up := hup
      ctc_notFresh := fun _ => rfl
      down_pos := hdown
      guard_state := fun hw => nomatch hb.symm.trans hw }
  case startGuard =>
    obtain ⟨hclock, _⟩ := h.wait_clock (by simp [hb])
    rw [tick_of_startGuard hb]
    exact { h with
      notInitializing := by simp
      cnt_le := hcnt
      ctc_up := hup
      ctc_notFresh := fun _ => rfl
      down_pos := hdown
      idle_clock := fun _ => hclock
      wait_sym := fun hw => absurd rfl hw
      wait_clock := fun hw => absurd rfl hw
      guard_state := nofun
      probe_state := nofun
      fail_cause := iff_of_true rfl rfl }
  case readProbe =>
    obtain ⟨hclock, _⟩ := h.wait_clock (by simp [hb])
    rw [tick_of_readProbe hb]
    exact { h with
      cnt_le := hcnt
      ctc_up := hup
      ctc_notFresh := fun _ => rfl
      down_pos := hdown
      idle_clock := fun _ => hclock.trans (if_pos (h.probe_state hb)).symm
      wait_sym := fun hw => absurd rfl hw
      wait_clock := fun hw => absurd rfl hw
      guard_state := nofun
      probe_state := nofun
      fail_cause := iff_of_true rfl rfl }

end

/-! ### Every step -/

theorem inv_step {s t : State} (h : Inv s) (hstep : step s = .next t) : Inv t := by
  cases stepCase_of_step hstep with
  | still _ ht => exact ht ▸ h
  | hostReads _ a v prog sched idx ht => exact ht ▸ inv_of_io h prog sched _ idx
  | hostWrites _ _ x y prog sched idx ht => exact ht ▸ { h with }
  | illegal _ _ prog sched idx ht => exact ht ▸ { h with fail_cause := by simp }
  | command _ hidle i w rest sched idx _ _ hexec =>
    exact inv_execCase (inv_of_io h rest sched s.trace idx) hidle (execCase_of_exec hexec)
  | ticks _ _ sched idx ht => exact ht ▸ inv_tick (inv_of_io h s.prog sched s.trace idx)
  | latches _ sched idx _ ht => exact ht ▸ { h with }
  | invokes _ sched idx _ ht => exact ht ▸ { h with }
  | returns _ sched idx _ ht => exact ht ▸ { h with }

theorem par_of_step {s t : State} (hstep : step s = .next t) : t.par = s.par := by
  cases stepCase_of_step hstep with
  | command _ _ _ _ _ _ _ _ _ hexec =>
    obtain ⟨hpar, _⟩ := exec_frame hexec
    exact hpar
  | ticks _ _ sched idx ht =>
    obtain ⟨hpar, _⟩ := tick_frame { s with sched := sched, freeIdx := idx }
    exact ht ▸ hpar
  | _ => simp_all

/-- Settles O9: the invariant by the case of the step, and the parameters, which no case writes. -/
theorem stepKeepsInvariant : Obligations.StepKeepsInvariant :=
  ⟨fun _ _ => inv_step, fun _ _ => par_of_step⟩

end Sys2Proof.Proofs
end

section
/-! PROOFS. Rules over all steps: the lifecycle state, the selection and the interrupt enable
(R34, R36, R122, R145, R231), the wait (R71, R90), and the bridge (R40, R41, R220 to R223). -/

namespace Sys2Proof.Proofs

open Sys2Proof Sys2Proof.Machine

/-! ### The lifecycle state -/

theorem stateAfter_ne_uninitialized {i : Instr} {t : TimerState} (h : t ≠ .uninitialized) :
    stateAfter i t ≠ .uninitialized := by
  cases i
  case init => simp [stateAfter, h]
  case start => rw [stateAfter]; split <;> simp_all
  case resume => rw [stateAfter]; split <;> simp_all
  case stop => simp [stateAfter]
  all_goals exact h

theorem exec_ne_uninitialized {i : Instr} {s t : State} (hexec : exec i s = .next t)
    (h : s.tstate ≠ .uninitialized) : t.tstate ≠ .uninitialized := by
  rcases answers_of_exec hexec with ⟨_, hdone⟩ | ⟨_, hstate, _⟩
  · exact hdone.tstate ▸ stateAfter_ne_uninitialized h
  · exact hstate ▸ h

/-- The tick writes STATE and IE only where it ends a start guard (R130, R214). -/
theorem tick_tstate_ie (s : State) :
    (tick s).tstate = (if s.busyOp = .startGuard then .running else s.tstate) ∧
    (tick s).ie = (if s.busyOp = .startGuard then true else s.ie) := by
  cases hb : s.busyOp
  · simp [tick_of_idle hb]
  · simp [tick_of_startGuard hb]
  · rw [tick_of_readProbe hb]
    exact ⟨rfl, rfl⟩

theorem step_ne_uninitialized {s t : State} (hstep : step s = .next t)
    (h : s.tstate ≠ .uninitialized) : t.tstate ≠ .uninitialized := by
  cases stepCase_of_step hstep with
  | command _ _ _ _ _ _ _ _ _ hexec => exact exec_ne_uninitialized hexec h
  | ticks _ _ sched idx ht =>
    obtain ⟨hstate, _⟩ := tick_tstate_ie { s with sched := sched, freeIdx := idx }
    rw [ht, hstate]
    split
    · simp
    · exact h
  | _ => simp_all

/-- Settles O32: no step enters Uninitialized, and INIT fails in every other state. -/
theorem uninitializedNeverReentered : Obligations.UninitializedNeverReentered := by
  intro s t hstep h
  have ht := step_ne_uninitialized hstep h
  exact ⟨ht, exec_init_of_not_uninitialized ht⟩

/-! ### The selection -/

/-- TOP and CS_SEL of `t` are the selection of one period, and CS_HW follows while Running
(R121). -/
def Selected (p : Params) (t : State) : Prop :=
  ∃ period, t.top = (select p period).top ∧ t.csSel = (select p period).cs ∧
    (t.tstate = .running → t.csHw = t.csSel)

theorem exec_selection {i : Instr} {s t : State} (h : exec i s = .next t) :
    (t.top = s.top ∧ t.csSel = s.csSel) ∨ Selected s.par t := by
  cases execCase_of_exec h with
  | init => exact .inr ⟨_, rfl, rfl, nofun⟩
  | setPeriod => exact .inr ⟨_, rfl, rfl, fun hrun => if_pos hrun⟩
  | channel _ hu =>
    rcases hu with rfl | ⟨period, rfl⟩
    · exact .inl ⟨rfl, rfl⟩
    · exact .inr ⟨period, rfl, rfl, fun hrun => if_pos hrun⟩
  | _ => exact .inl ⟨rfl, rfl⟩

theorem step_selection {s t : State} (hstep : step s = .next t) :
    (t.top = s.top ∧ t.csSel = s.csSel) ∨ Selected s.par t := by
  cases stepCase_of_step hstep with
  | command _ _ _ _ _ _ _ _ _ hexec =>
    have hcase := exec_selection hexec
    exact hcase
  | ticks _ _ sched idx ht =>
    obtain ⟨_, hsel, _, htop, _⟩ := tick_frame { s with sched := sched, freeIdx := idx }
    exact .inl ⟨ht ▸ htop, ht ▸ hsel⟩
  | _ => simp_all

/-- Settles O33: only a selection write reaches TOP or CS_SEL, and it writes both. -/
theorem selectionWrittenTogether : Obligations.SelectionWrittenTogether := by
  rintro s t hstep hchange
  rcases step_selection hstep with ⟨htop, hsel⟩ | hselected
  · exact absurd hchange (by simp [htop, hsel])
  · exact hselected

/-! ### The interrupt enable -/

theorem exec_keeps_enable {i : Instr} {s t : State} (h : exec i s = .next t)
    (hs : s.tstate = .running) (ht : t.tstate = .running) (hie : s.ie = decide (s.cb ≠ 0)) :
    t.ie = decide (t.cb ≠ 0) := by
  cases execCase_of_exec h with
  | init hu => cases hs.symm.trans hu
  | startWaits hlegal => simp [hs] at hlegal
  | startRuns => rfl
  | stop => cases ht
  | attach hcb => exact (if_pos hs).trans (decide_eq_true hcb).symm
  | detach => simp [hs]
  | channel _ hu =>
    rcases hu with rfl | ⟨period, rfl⟩
    all_goals exact hie
  | _ => exact hie

theorem step_keeps_enable {s t : State} (hinv : Inv s) (hstep : step s = .next t)
    (hs : s.tstate = .running) (ht : t.tstate = .running) (hie : s.ie = decide (s.cb ≠ 0)) :
    t.ie = decide (t.cb ≠ 0) := by
  cases stepCase_of_step hstep with
  | command _ _ _ _ _ _ _ _ _ hexec => exact exec_keeps_enable hexec hs ht hie
  | ticks _ _ sched idx htick =>
    have hguard : s.busyOp ≠ .startGuard := fun hb => by
      obtain ⟨hlegal, _⟩ := hinv.guard_state hb
      simp [hs] at hlegal
    obtain ⟨_, _, _, _, hcb, _⟩ := tick_frame { s with sched := sched, freeIdx := idx }
    obtain ⟨_, hkept⟩ := tick_tstate_ie { s with sched := sched, freeIdx := idx }
    rw [htick, hkept, if_neg hguard, hcb]
    exact hie
  | _ => simp_all

/-- Settles O34: the first part by the case of the step; for START, IE is written at once from CB
or, where CB is attached and the guard waits, switched on by the tick. -/
theorem interruptEnableAgreement : Obligations.InterruptEnableAgreement := by
  refine ⟨fun s t => step_keeps_enable, fun s t hlegal hidle hexec => ?_⟩
  by_cases hg : s.par.mode = .sym ∧ s.cb ≠ 0 ∧ s.csSel ≠ 0
  · cases hexec.symm.trans (exec_start_of_guard hlegal hg)
    obtain ⟨_, hcb, _⟩ := hg
    refine ⟨nofun, fun _ => ⟨rfl, ?_⟩⟩
    rw [tick_of_startGuard rfl]
    exact (decide_eq_true hcb).symm
  · cases hexec.symm.trans (exec_start_of_no_guard hlegal hg)
    exact ⟨fun _ => rfl, fun hwait => absurd hidle hwait⟩

/-- START in SYM whose clock runs leaves IE off: it waits, or no callback is attached. -/
theorem not_drawAsked_after_start {s t : State} (hlegal : s.tstate = .ready ∨ s.tstate = .stopped)
    (hexec : exec .start s = .next t) (hrun : t.csHw ≠ 0) : drawAsked t = false := by
  by_cases hg : s.par.mode = .sym ∧ s.cb ≠ 0 ∧ s.csSel ≠ 0
  · cases hexec.symm.trans (exec_start_of_guard hlegal hg)
    exact drawAsked_of_not_fresh_or_not_ie (.inr rfl)
  · cases hexec.symm.trans (exec_start_of_no_guard hlegal hg)
    cases hm : s.par.mode
    · exact drawAsked_of_ctc hm
    · have hcb : s.cb = 0 := by
        by_contra hcb
        exact hg ⟨hm, hcb, hrun⟩
      exact drawAsked_of_not_fresh_or_not_ie (.inr (by simp [hcb]))

/-- Settles O39: the draw is not asked in the first tick after START. -/
theorem startSuppressesSpuriousEvent : Obligations.StartSuppressesSpuriousEvent := by
  intro s t hlegal hexec hrun
  obtain ⟨_, _, hpend, _⟩ := tick_counted t
  rw [hpend, spurious_of_not_drawAsked (not_drawAsked_after_start hlegal hexec hrun),
    Bool.or_false]

/-! ### The wait -/

theorem callbacks_read (os : List Output) (a : Nat) (v : Word) :
    callbacks (os ++ [.readData a v]) = callbacks os := by
  simp [callbacks_append, callbacks]

/-- While a command waits there are two kinds of step: a tick, or the host's reads, which write only
the inputs and outputs and emit no callback (R68, R71, R90). -/
theorem step_while_waiting {s t : State} (hstep : step s = .next t) (hb : s.busyOp ≠ .none) :
    (nextTurn s = some .counter ∧ ∃ sched idx, t = tick { s with sched := sched, freeIdx := idx }) ∨
    (∃ prog sched trace idx, callbacks trace = callbacks s.trace ∧
      t = { s with prog := prog, sched := sched, trace := trace, freeIdx := idx }) := by
  cases stepCase_of_step hstep with
  | still _ ht => exact .inr ⟨s.prog, s.sched, s.trace, s.freeIdx, rfl, ht⟩
  | hostReads _ a v prog sched idx ht =>
    exact .inr ⟨prog, sched, _, idx, callbacks_read s.trace a v, ht⟩
  | ticks hturn _ sched idx ht => exact .inl ⟨hturn, sched, idx, ht⟩
  | _ => simp_all

theorem tick_pend_of_pend {s : State} (h : s.pend = true) : (tick s).pend = true := by
  obtain ⟨_, _, hpend, _⟩ := tick_counted s
  simp [hpend, h]

/-- Settles O43: neither kind of step of a wait is a step of the bridge. -/
theorem bridgeMaskedWhileBusy : Obligations.BridgeMaskedWhileBusy := by
  intro s t hstep hb
  rcases step_while_waiting hstep hb with ⟨_, sched, idx, rfl⟩ | ⟨_, _, _, _, htrace, rfl⟩
  · obtain ⟨_, _, _, _, _, hinflight, hactive, htrace⟩ :=
      tick_frame { s with sched := sched, freeIdx := idx }
    exact ⟨hinflight, hactive, congrArg callbacks htrace, fun h => tick_pend_of_pend h⟩
  · exact ⟨rfl, rfl, htrace, id⟩

/-- Settles O58: the steps of a wait other than a tick write only the inputs and outputs. -/
theorem waitHeldBetweenTicks : Obligations.WaitHeldBetweenTicks := by
  intro s t hstep hb hturn
  rcases step_while_waiting hstep hb with ⟨hcounter, _⟩ | ⟨_, _, _, _, _, rfl⟩
  · exact absurd hcounter hturn
  · exact ⟨rfl, rfl, rfl, rfl, rfl, rfl, rfl⟩

/-! ### The bridge -/

/-- What a step does to the event in flight, ACTIVE and the callbacks: it latches, it invokes, or it
keeps INFLIGHT and the callbacks, and ACTIVE too unless it is CallbackReturn (R220 to R222). -/
inductive BridgeCase (s t : State) : Prop where
  | latches (hturn : nextTurn s = some .latch) (hie : s.ie = true) (hfree : s.inflight = 0)
      (hcaptured : t.inflight = s.cb) (htrace : t.trace = s.trace)
  | invokes (hturn : nextTurn s = some .invoke) (hquiet : s.active = false)
      (hfree : t.inflight = 0) (hactive : t.active = true) (hpend : t.pend = s.pend)
      (htrace : t.trace = s.trace ++ [.callback s.inflight])
  | keeps (hlatch : nextTurn s ≠ some .latch) (hinvoke : nextTurn s ≠ some .invoke)
      (hinflight : t.inflight = s.inflight)
      (hactive : t.active = if nextTurn s = some .callbackReturn then false else s.active)
      (hpend : s.pend = true → t.pend = true) (htrace : callbacks t.trace = callbacks s.trace)

theorem bridgeCase_of_step {s t : State} (hstep : step s = .next t) : BridgeCase s t := by
  cases stepCase_of_step hstep with
  | still hturn ht =>
    subst ht
    exact .keeps (by simp [hturn]) (by simp [hturn]) rfl (by simp [hturn]) id rfl
  | hostReads hturn a v _ _ _ ht =>
    subst ht
    exact .keeps (by simp [hturn]) (by simp [hturn]) rfl (by simp [hturn]) id
      (callbacks_read s.trace a v)
  | hostWrites hturn _ _ _ _ _ _ ht | illegal hturn _ _ _ _ ht =>
    subst ht
    exact .keeps (by simp [hturn]) (by simp [hturn]) rfl (by simp [hturn]) id rfl
  | command hturn _ _ _ _ _ _ _ _ hexec =>
    obtain ⟨_, hpend, hinflight, hactive, _, _, _, _, htrace, _⟩ := exec_frame hexec
    exact .keeps (by simp [hturn]) (by simp [hturn]) hinflight (by simpa [hturn] using hactive)
      hpend.trans (congrArg callbacks htrace)
  | ticks hturn _ sched idx ht =>
    obtain ⟨_, _, _, _, _, hinflight, hactive, htrace⟩ :=
      tick_frame { s with sched := sched, freeIdx := idx }
    rw [ht]
    exact .keeps (by simp [hturn]) (by simp [hturn]) hinflight (by simpa [hturn] using hactive)
      (fun h => tick_pend_of_pend h) (congrArg callbacks htrace)
  | latches hturn _ _ hcond ht =>
    obtain ⟨_, hie, _, hfree⟩ := hcond
    subst ht
    exact .latches hturn hie hfree (ite_eq_left_iff.2 fun hcb => (not_not.1 hcb).symm) rfl
  | invokes hturn _ _ hcond ht =>
    obtain ⟨_, hquiet, _⟩ := hcond
    subst ht
    exact .invokes hturn hquiet rfl rfl rfl rfl
  | returns hturn _ _ _ ht =>
    subst ht
    exact .keeps (by simp [hturn]) (by simp [hturn]) rfl (by simp [hturn]) id rfl

/-- Settles O44: the invoke alone emits a callback, and it needs ACTIVE = 0. -/
theorem callbacksNeverNest : Obligations.CallbacksNeverNest := by
  intro s t hstep hactive
  cases bridgeCase_of_step hstep with
  | latches _ _ _ _ htrace => exact congrArg callbacks htrace
  | invokes _ hquiet => cases hquiet.symm.trans hactive
  | keeps _ _ _ _ _ htrace => exact htrace

/-- Settles O45: with an event in flight no latch is enabled, so INFLIGHT waits for the invoke. -/
theorem inflightEventDelivered : Obligations.InflightEventDelivered := by
  intro s t hstep hflight
  cases bridgeCase_of_step hstep with
  | latches _ _ hfree => exact absurd hfree hflight
  | invokes _ _ hfree hactive _ htrace => exact .inr ⟨hfree, hactive, htrace⟩
  | keeps _ _ hkept _ _ htrace => exact .inl ⟨hkept, htrace⟩

/-- A step that does not invoke keeps an event in flight, and ACTIVE too unless it is
CallbackReturn. -/
theorem inflight_kept {s t : State} (hstep : step s = .next t) (hflight : s.inflight ≠ 0)
    (hno : nextTurn s = some .invoke → s.active = true) :
    t.inflight = s.inflight ∧
      t.active = if nextTurn s = some .callbackReturn then false else s.active := by
  cases bridgeCase_of_step hstep with
  | latches _ _ hfree => exact absurd hfree hflight
  | invokes hturn hquiet => cases hquiet.symm.trans (hno hturn)
  | keeps _ _ hkept hactive => exact ⟨hkept, hactive⟩

/-- Settles O46: only the latch clears PEND. -/
theorem pendingClearedByLatchOnly : Obligations.PendingClearedByLatchOnly := by
  intro s t hstep hpend hclear
  cases bridgeCase_of_step hstep with
  | latches hturn hie hfree hcaptured => exact ⟨hturn, hie, hfree, hcaptured⟩
  | invokes _ _ _ _ hkept => cases hclear.symm.trans (hkept.trans hpend)
  | keeps _ _ _ _ hkept => cases hclear.symm.trans (hkept hpend)

end Sys2Proof.Proofs
end

section
/-! PROOFS. The selector (R102 to R107): which ratios fit a cycle count, the code that is chosen,
and the step-by-step form of the search; and the duty mapping (R180). -/

namespace Sys2Proof.Proofs

open Sys2Proof Sys2Proof.Machine

/-! ### Which ratios fit, and the chosen code -/

theorem selectCycles_of_none_fits {p : Params} {n : Nat}
    (h : ∀ c, 1 ≤ c → c ≤ nCodes p → 2 ^ p.r ≤ n / ratio p c) :
    selectCycles p n = { cs := nCodes p, top := maxTop p, inRange := false } := by
  rcases selectCycles_cases p n with ⟨c, hc, hcn, _, hfit, _⟩ | ⟨hsel, _⟩
  · exact absurd (h c hc hcn) (Nat.not_le.2 hfit)
  · exact hsel

section
variable {p : Params} (hp : paramsOk p = true)
include hp

/-- A ratio fits a cycle count exactly below `2^R` times the ratio. -/
theorem fits_iff (n c : Nat) : n / ratio p c < 2 ^ p.r ↔ n < 2 ^ p.r * ratio p c :=
  Nat.div_lt_iff_lt_mul ((paramsOk_facts hp).ratio_pos c)

theorem not_fits_iff (n c : Nat) : 2 ^ p.r ≤ n / ratio p c ↔ 2 ^ p.r * ratio p c ≤ n :=
  Nat.le_div_iff_mul_le ((paramsOk_facts hp).ratio_pos c)

theorem ratio_le {c d : Nat} (hc : 1 ≤ c) (hcd : c ≤ d) (hd : d ≤ nCodes p) :
    ratio p c ≤ ratio p d := by
  rcases hcd.eq_or_lt with rfl | hlt
  · exact le_rfl
  · exact ((paramsOk_facts hp).ratio_lt c d hc hlt hd).le

/-- The bounds of the codes rise with the code. -/
theorem codeBound_lt {c d : Nat} (hc : 1 ≤ c) (hcd : c < d) (hd : d ≤ nCodes p) :
    2 ^ p.r * ratio p c < 2 ^ p.r * ratio p d :=
  Nat.mul_lt_mul_of_pos_left ((paramsOk_facts hp).ratio_lt c d hc hcd hd) (Nat.two_pow_pos _)

theorem codeBound_le {c d : Nat} (hc : 1 ≤ c) (hcd : c ≤ d) (hd : d ≤ nCodes p) :
    2 ^ p.r * ratio p c ≤ 2 ^ p.r * ratio p d :=
  Nat.mul_le_mul_left _ (ratio_le hp hc hcd hd)

theorem codeBound_pos (c : Nat) : 0 < 2 ^ p.r * ratio p c :=
  Nat.mul_pos (Nat.two_pow_pos _) ((paramsOk_facts hp).ratio_pos c)

/-- Above every bound the request is clamped (R104). -/
theorem selectCycles_of_bound_le {n : Nat} (h : 2 ^ p.r * ratio p (nCodes p) ≤ n) :
    selectCycles p n = { cs := nCodes p, top := maxTop p, inRange := false } :=
  selectCycles_of_none_fits fun c hc hcn =>
    (not_fits_iff hp n c).2 ((codeBound_le hp hc hcn le_rfl).trans h)

/-- The chosen code is the least whose bound is above the count (R102). -/
theorem selectCycles_of_least {n c : Nat} (hc : 1 ≤ c) (hcn : c ≤ nCodes p)
    (hfit : n < 2 ^ p.r * ratio p c) (hleast : ∀ k, 1 ≤ k → k < c → 2 ^ p.r * ratio p k ≤ n) :
    selectCycles p n = { cs := c, top := n / ratio p c, inRange := true } := by
  rcases selectCycles_cases p n with ⟨d, hd, hdn, hsel, hdfit, hdleast⟩ | ⟨_, hnone⟩
  · have hnlt : ¬c < d := fun hlt =>
      absurd ((not_fits_iff hp n c).1 (hdleast c hc hlt)) (Nat.not_le.2 hfit)
    have hngt : ¬d < c := fun hlt =>
      absurd (hleast d hd hlt) (Nat.not_le.2 ((fits_iff hp n d).1 hdfit))
    obtain rfl : c = d := by omega
    exact hsel
  · exact absurd ((not_fits_iff hp n c).1 (hnone c hc hcn)) (Nat.not_le.2 hfit)

/-- R105 from a cycle count. -/
theorem selectCycles_range (n : Nat) :
    let sel := selectCycles p n
    (1 ≤ sel.cs ∧ sel.cs ≤ nCodes p) ∧ sel.top < 2 ^ p.r ∧
    (sel.inRange = true ↔ n < 2 ^ p.r * ratio p (nCodes p)) ∧
    (sel.inRange = true →
      sel.top = n / ratio p sel.cs ∧ (sel.cs = 1 ∨ 2 ^ p.r ≤ n / ratio p (sel.cs - 1))) := by
  have hf := paramsOk_facts hp
  rcases selectCycles_cases p n with ⟨c, hc, hcn, hsel, hfit, hleast⟩ | ⟨hsel, hnone⟩
  · have hbound : n < 2 ^ p.r * ratio p (nCodes p) :=
      ((fits_iff hp n c).1 hfit).trans_le (codeBound_le hp hc hcn le_rfl)
    have hbefore : c = 1 ∨ 2 ^ p.r ≤ n / ratio p (c - 1) := by
      rcases hc.eq_or_lt with rfl | hlt
      · exact .inl rfl
      · exact .inr (hleast (c - 1) (by omega) (by omega))
    rw [hsel]
    exact ⟨⟨hc, hcn⟩, hfit, iff_of_true rfl hbound, fun _ => ⟨rfl, hbefore⟩⟩
  · have hbound := (not_fits_iff hp n _).1 (hnone _ hf.nCodes_pos le_rfl)
    rw [hsel]
    exact ⟨⟨hf.nCodes_pos, le_rfl⟩, Nat.sub_lt (Nat.two_pow_pos _) one_pos,
      iff_of_false nofun (Nat.not_lt.2 hbound), nofun⟩

end

/-- Settles O12, at the cycle count of the period. -/
theorem selectRangeAndLeastness : Obligations.SelectRangeAndLeastness :=
  fun p period hp => selectCycles_range hp (cycles p period)

/-- Settles O13: no ratio fits, so the selection is the clamp, and SET_PERIOD writes it (R127). -/
theorem selectClampsOutOfRange : Obligations.SelectClampsOutOfRange := by
  intro s hp hnone
  have hsel : select s.par s.arg0.toNat =
      { cs := nCodes s.par, top := maxTop s.par, inRange := false } :=
    selectCycles_of_none_fits hnone
  refine ⟨hsel, _, exec_setPeriod s, ?_⟩
  simp [hsel]

/-- A count of no cycles fits the first ratio. -/
theorem selectCycles_zero {p : Params} (hp : paramsOk p = true) :
    selectCycles p 0 = { cs := 1, top := 0, inRange := true } := by
  rw [selectCycles_of_least hp le_rfl (paramsOk_facts hp).nCodes_pos (codeBound_pos hp 1)
    (fun k hk hlt => absurd hlt (Nat.not_lt.2 hk)), Nat.zero_div]

/-- Settles O15: below the rounding bound the count is 0. -/
theorem periodZeroSelectsMinimum : Obligations.PeriodZeroSelectsMinimum := by
  intro p period hp hsmall
  have hd := modeDivisor_pos p.mode
  have hlt : p.fHz * period < modeDivisor p.mode * 500000 := by
    rcases hsmall with rfl | hlt
    · simpa using hd
    · exact hlt
  have hzero : cycles p period = 0 :=
    Nat.lt_one_iff.1 ((cycles_lt_iff p period 1).2 (by omega))
  exact ⟨hzero, by rw [select, hzero, selectCycles_zero hp]⟩

/-- Settles O16: at the last count that fits code c every smaller code's bound is passed, and the
next count is the bound itself. -/
theorem codeBoundaries : Obligations.CodeBoundaries := by
  intro p c hp hc hcn
  have hpos := codeBound_pos hp c
  have hlast : selectCycles p (2 ^ p.r * ratio p c - 1) = { cs := c, top := _, inRange := true } :=
    selectCycles_of_least hp hc hcn (by omega) fun k hk hlt => by
      have := codeBound_lt hp hk hlt hcn
      omega
  refine ⟨fun n => ?_, by rw [hlast], by rw [hlast], fun hlt => ?_, fun heq => ?_⟩
  · rw [fits_iff hp]
    omega
  · rw [selectCycles_of_least hp (by omega) hlt (codeBound_lt hp hc c.lt_succ_self hlt)
      fun k hk hkc => codeBound_le hp hk (by omega) hcn]
  · rw [selectCycles_of_bound_le hp (by rw [heq])]

/-! ### The step-by-step search (R103) -/

/-- From the quotient by `t`, the incremental factors give the quotients by the ratios after it. -/
theorem findIncremental_eq {limit n t i : Nat} {ts : List Nat} (h : ratiosOk t ts = true) :
    findIncremental limit (n / t) t i ts = findRatio limit n i ts := by
  induction ts generalizing t i with
  | nil => rfl
  | cons u us ih =>
    simp only [ratiosOk, Bool.and_eq_true, decide_eq_true_eq] at h
    obtain ⟨⟨_, _, hmod⟩, hrest⟩ := h
    have hstep : n / t / (u / t) = n / u := by
      rw [Nat.div_div_eq_div_mul, Nat.mul_div_cancel' (Nat.dvd_of_mod_eq_zero hmod)]
    rw [findIncremental, findRatio, hstep, ih hrest]

theorem table_eq_cons {p : Params} (hp : paramsOk p = true) :
    ∃ ts, p.table = 1 :: ts ∧ ratiosOk 1 ts = true := by
  simp only [paramsOk, Bool.and_eq_true] at hp
  obtain ⟨⟨⟨⟨_, htable⟩, _⟩, _⟩, _⟩ := hp
  cases ht : p.table with
  | nil => simp [ht, tableOk] at htable
  | cons t ts =>
    simp only [ht, tableOk, Bool.and_eq_true, decide_eq_true_eq] at htable
    obtain ⟨⟨rfl, _⟩, hratios⟩ := htable
    exact ⟨ts, rfl, hratios⟩

/-- Settles O14: each incremental factor completes the ratio before it to the next one. -/
theorem stepwiseDivisionAgrees : Obligations.StepwiseDivisionAgrees := by
  intro p n hp
  have hf := paramsOk_facts hp
  refine ⟨by rw [hf.ratio_one, Nat.div_one], fun i hi hin => ?quotient, ?search⟩
  case quotient =>
    rw [Nat.div_div_eq_div_mul,
      Nat.mul_div_cancel' (hf.ratio_dvd i (i + 1) hi i.lt_succ_self hin)]
  case search =>
    obtain ⟨ts, htable, hratios⟩ := table_eq_cons hp
    rw [htable, findIncremental, findRatio, ← findIncremental_eq hratios,
      Nat.div_one]

/-! ### The duty mapping -/

/-- Settles O28: the mapping divides a product that rises with the duty. -/
theorem dutyMappingProperties : Obligations.DutyMappingProperties := by
  intro p top d e
  refine ⟨rfl, ?zero, ?full, fun hde => Nat.div_le_div_right (Nat.mul_le_mul_left top hde),
    dutyInRange_iff p d, fun hd => dutyToCmp_le_of_le ((dutyInRange_iff p d).1 hd)⟩
  case zero => rw [dutyToCmp, Nat.mul_zero, Nat.zero_div]
  case full => exact Nat.mul_div_cancel top (Nat.two_pow_pos _)

end Sys2Proof.Proofs
end

section
/-! PROOFS. READ as a measurement (42_counter_read.md): the conversion and its bounds (R11 e, R166,
R167), which steps write DATA (R46), and the readings of a counter that ticks from 0. -/

namespace Sys2Proof.Proofs

open Sys2Proof Sys2Proof.Machine

/-! ### The conversion -/

theorem toUs_mono (p : Params) (c : Nat) {v w : Nat} (h : v ≤ w) : toUs p v c ≤ toUs p w c :=
  Nat.mul_le_mul_right _ (Nat.div_le_div_right (Nat.mul_le_mul_right _ h))

/-- The rounding of R101 adds at most half of D clock cycles, which last less than a microsecond
where the clock of `g` kHz runs above D × 500 kHz. -/
theorem cycles_lt_of_kilohertz {p : Params} {g : Nat} (period : Nat) (hg : p.fHz = 1000 * g)
    (hclock : modeDivisor p.mode * 500000 < p.fHz) :
    1000 * (modeDivisor p.mode * cycles p period) < g * (period + 1) := by
  have hle := (le_cycles_iff p period _).1 le_rfl
  rw [hg] at hle
  have hn : modeDivisor p.mode * 1000000 * cycles p period =
      1000000 * (modeDivisor p.mode * cycles p period) := by ring
  have hgp : 1000 * g * period = 1000 * (g * period) := by ring
  have hsucc : g * (period + 1) = g * period + g := by ring
  omega

section
variable {p : Params} (hp : paramsOk p = true)
include hp

/-- The shift of a code as R12 reads it off the table. -/
theorem table_shift {c : Nat} (hc : c ≤ nCodes p) :
    if c = 0 then shift p c = 0 else p.table[c - 1]? = some (2 ^ shift p c) := by
  split
  case isTrue h => exact if_pos h
  case isFalse h =>
    have hlt : c - 1 < p.table.length := by
      have : c ≤ p.table.length := hc
      omega
    rw [← (paramsOk_facts hp).ratio_eq c (by omega) hc, ratio, List.getD_eq_getElem _ _ hlt,
      List.getElem?_eq_getElem hlt]

theorem shift_le {c : Nat} (hc : c ≤ nCodes p) : shift p c ≤ shift p (nCodes p) := by
  have hf := paramsOk_facts hp
  rcases Nat.eq_zero_or_pos c with rfl | hpos
  · exact Nat.zero_le _
  · have hle := ratio_le hp hpos hc le_rfl
    rw [hf.ratio_eq c hpos hc, hf.ratio_eq _ hf.nCodes_pos le_rfl] at hle
    exact (Nat.pow_le_pow_iff_right (by decide)).1 hle

/-- R11 (e): every count, folded or not, converts to a value that fits DATA. -/
theorem toUs_lt {c v : Nat} (hc : c ≤ nCodes p) (hv : v ≤ 2 * maxTop p) : toUs p v c < 2 ^ 32 := by
  have hmax : 2 * maxTop p = 2 ^ (p.r + 1) - 2 := by
    rw [maxTop, pow_succ]
    omega
  calc toUs p v c ≤ toUs p (2 * maxTop p) c := toUs_mono p c hv
    _ ≤ (2 * maxTop p * 1000) / (p.fHz / 1000) * 2 ^ shift p (nCodes p) :=
        Nat.mul_le_mul_left _ (Nat.pow_le_pow_right (by decide) (shift_le hp hc))
    _ < 2 ^ 32 := by
        rw [hmax]
        exact (paramsOk_facts hp).conversion

theorem toNat_reading {c v : Nat} (hc : c ≤ nCodes p) (hv : v ≤ 2 * maxTop p) :
    (BitVec.ofNat 32 (toUs p v c)).toNat = toUs p v c :=
  toNat_ofNat_of_lt (toUs_lt hp hc hv)

/-- The top value of an in-range period is at most the cycle count divided by the ratio. -/
theorem top_mul_ratio_le {period : Nat} (hrange : (select p period).inRange = true) :
    (select p period).top * 2 ^ shift p (select p period).cs ≤ cycles p period := by
  obtain ⟨⟨hc, hcn⟩, _, _, hfit⟩ := selectCycles_range hp (cycles p period)
  obtain ⟨htop, _⟩ := hfit hrange
  rw [← select] at hc hcn htop
  rw [htop, ← (paramsOk_facts hp).ratio_eq _ hc hcn]
  exact Nat.div_mul_le_self _ _

/-- R167: with a clock of whole kilohertz, a count of at most D × TOP converts, under the ratio that
was selected for an in-range period, to at most the period. -/
theorem toUs_le_period {period v : Nat} (hkhz : p.fHz % 1000 = 0)
    (hclock : modeDivisor p.mode * 500000 < p.fHz) (hrange : (select p period).inRange = true)
    (hv : v ≤ modeDivisor p.mode * (select p period).top) :
    toUs p v (select p period).cs ≤ period := by
  obtain ⟨g, hg⟩ : ∃ g, p.fHz = 1000 * g := Nat.dvd_of_mod_eq_zero hkhz
  have hdiv : p.fHz / 1000 = g := by omega
  have hconv : toUs p v (select p period).cs * g < (period + 1) * g :=
    calc toUs p v (select p period).cs * g
        = v * 1000 / g * g * 2 ^ shift p (select p period).cs := by
          rw [toUs, hdiv]
          ring
      _ ≤ v * 1000 * 2 ^ shift p (select p period).cs :=
          Nat.mul_le_mul_right _ (Nat.div_mul_le_self _ g)
      _ ≤ modeDivisor p.mode * (select p period).top * 1000 *
            2 ^ shift p (select p period).cs :=
          Nat.mul_le_mul_right _ (Nat.mul_le_mul_right _ hv)
      _ = 1000 * (modeDivisor p.mode *
            ((select p period).top * 2 ^ shift p (select p period).cs)) := by ring
      _ ≤ 1000 * (modeDivisor p.mode * cycles p period) :=
          Nat.mul_le_mul_left _ (Nat.mul_le_mul_left _ (top_mul_ratio_le hp hrange))
      _ < g * (period + 1) := cycles_lt_of_kilohertz period hg hclock
      _ = (period + 1) * g := Nat.mul_comm _ _
  exact Nat.lt_succ_iff.1 (Nat.lt_of_mul_lt_mul_right hconv)

end

/-- Settles O56: the formula by the known ratio; in SYM the divisor D is 2. -/
theorem symConversionWithinPeriod : Obligations.SymConversionWithinPeriod := by
  refine ⟨fun p v c k hk => toUs_of_ratio hk v, fun p period hp hm hkhz hclock hrange =>
    ⟨fun v w c => toUs_mono p c, fun v hv => toUs_le_period hp hkhz ?_ hrange ?_⟩⟩
  · simpa [hm, modeDivisor] using hclock
  · simpa [hm, modeDivisor] using hv.le

/-! ### The steps that write DATA -/

/-- Of the commands only a READ that takes no probe writes DATA. -/
theorem exec_data {i : Instr} {s t : State} (h : exec i s = .next t) (hdata : t.data ≠ s.data) :
    i = .read ∧ (s.tstate = .running ∨ s.tstate = .stopped) ∧ (s.par.mode = .ctc ∨ s.csHw = 0) ∧
      t.fail = false ∧ t.data = BitVec.ofNat 32 (toUs s.par s.cnt s.csSel) := by
  cases execCase_of_exec h with
  | readDelivers hs hp => exact ⟨rfl, hs, hp, rfl, rfl⟩
  | channel _ hu =>
    rcases hu with rfl | ⟨period, rfl⟩
    all_goals exact absurd rfl hdata
  | _ => exact absurd rfl hdata

/-- Of the ticks only the one that ends a probe writes DATA. -/
theorem tick_data {s : State} (hdata : (tick s).data ≠ s.data) :
    s.busyOp = .readProbe ∧ (tick s).fail = false ∧
      (tick s).data =
        BitVec.ofNat 32 (toUs s.par (probeValue s.top s.v1 (tick s).cnt) s.csSel) := by
  cases hb : s.busyOp
  case none => simp [tick_of_idle hb] at hdata
  case startGuard =>
    rw [tick_of_startGuard hb] at hdata
    exact absurd rfl hdata
  case readProbe =>
    rw [tick_of_readProbe hb]
    exact ⟨rfl, rfl, rfl⟩

theorem probeValue_le {s : State} (h : Inv s) (v2 : Nat) :
    probeValue s.top s.v1 v2 ≤ 2 * maxTop s.par := by
  have htop := h.top_le
  have hv1 := h.v1_le
  rw [probeValue, fold]
  split <;> omega

/-- Settles O53: DATA is written by the READ command or by the tick that ends its probe, in each
case with a reading that fits (R11 e). -/
theorem dataHoldsElapsedExactly : Obligations.DataHoldsElapsedExactly := by
  intro s t hinv hstep hdata
  have hshift := table_shift hinv.params hinv.csSel_le
  cases stepCase_of_step hstep with
  | command hturn hidle i w rest sched idx hprog hdec hexec =>
    obtain ⟨rfl, hs, hp, hfail, hread⟩ := exec_data hexec hdata
    obtain ⟨_, rfl⟩ := encodeDecodeRoundTrip _ _ _ hdec
    have hfits : s.cnt ≤ 2 * maxTop s.par := hinv.cnt_le.trans (by omega)
    refine ⟨hfail, hs, s.cnt, _, hshift, ?_, .inl ⟨hturn, hidle, hp, ⟨rest, hprog⟩, rfl⟩⟩
    rw [hread, ← toUs_of_ratio hshift]
    exact toNat_reading hinv.params hinv.csSel_le hfits
  | ticks hturn _ sched idx ht =>
    subst ht
    obtain ⟨hb, hfail, hread⟩ := tick_data hdata
    have hcnt : (tick { s with sched := sched, freeIdx := idx }).cnt = (tick s).cnt :=
      (tick_counted _).1.trans (tick_counted s).1.symm
    refine ⟨hfail, .inl (hinv.probe_state hb), _, _, hshift, ?_, .inr ⟨hturn, hb, rfl⟩⟩
    rw [hread, ← toUs_of_ratio hshift, hcnt]
    exact toNat_reading hinv.params hinv.csSel_le (probeValue_le hinv _)
  | _ => simp_all

/-! ### Readings of a SYM counter -/

section
variable {s : State} (hm : s.par.mode = .sym)
include hm

/-- On the way up the counter is not below its snapshot one tick later (R163). -/
theorem probeValue_rising (hdir : s.dir = .up) (h : s.cnt < s.top) :
    probeValue s.top s.cnt (count s).cnt = s.cnt := by
  rw [count_sym_rising hm hdir h]
  exact if_neg (Nat.not_lt.2 s.cnt.le_succ)

/-- On the way down it is one below its snapshot, which is folded (R163, R165). -/
theorem probeValue_falling (hdir : s.dir = .down) (htop : s.top ≠ 0) (hpos : 1 ≤ s.cnt) :
    probeValue s.top s.cnt (count s).cnt = 2 * s.top - s.cnt := by
  have hdown : ¬(s.dir = .up ∧ s.cnt < s.top) := not_rising_of_down_or_top_le (.inl hdir)
  have hfall : (count s).cnt < s.cnt := by
    rcases hpos.eq_or_lt with hone | hlt
    · rw [count_sym_arriving hm htop hdown hone.symm]
      exact hpos
    · rw [count_sym_falling hm htop hdown hlt]
      exact Nat.sub_lt hpos one_pos
  exact if_pos hfall

/-- A READ of a running SYM counter waits, and the next tick delivers what its probe has read. -/
theorem read_then_tick (hrun : s.tstate = .running) (hclock : s.csHw ≠ 0) {val : Nat}
    (hval : probeValue s.top s.cnt (count s).cnt = val)
    (hfits : (BitVec.ofNat 32 (toUs s.par val s.csSel)).toNat = toUs s.par val s.csSel) :
    ∃ u, exec .read s = .next u ∧ u.busyOp = .readProbe ∧ (tick u).busyOp = .none ∧
      (tick u).fail = false ∧ (tick u).data.toNat = toUs s.par val s.csSel := by
  refine ⟨_, exec_read_of_probe (.inl hrun) ((probeApplies_iff s).2 ⟨hm, hclock⟩), rfl, ?_⟩
  rw [tick_of_readProbe rfl]
  refine ⟨rfl, rfl, ?_⟩
  rw [← hfits, ← hval]
  rfl

end

/-- Settles O54: after `k` ticks the counter is at `k` and rising, or at `2 × TOP - k` and falling,
and in both cases the probe reads `k`. -/
theorem symReadMeasuresTicks : Obligations.SymReadMeasuresTicks := by
  intro s k m hinv hm hrun hidle hclock hcnt hdir htop hquiet hk hratio
  have hsel : s.csSel ≠ 0 := by
    have hclock' := hinv.idle_clock hidle
    rw [if_pos hrun] at hclock'
    exact hclock' ▸ hclock
  have htable : if s.csSel = 0 then m = 0 else s.par.table[s.csSel - 1]? = some (2 ^ m) := by
    rwa [if_neg hsel]
  have hfits : (BitVec.ofNat 32 (toUs s.par k s.csSel)).toNat = toUs s.par k s.csSel :=
    toNat_reading hinv.params hinv.csSel_le (by have := hinv.top_le; omega)
  rw [← toUs_of_ratio htable]
  by_cases hup : k < s.top
  case pos =>
    obtain ⟨fresh, _, h⟩ := ticks_sym_rising (k := k) hm hidle hquiet hdir (by omega)
    rw [hcnt, Nat.zero_add] at h
    rw [h]
    exact read_then_tick (s := { s with cnt := k, fresh := fresh }) hm hrun hclock
      (probeValue_rising (s := { s with cnt := k, fresh := fresh }) hm hdir hup) hfits
  case neg =>
    obtain ⟨j, rfl⟩ := Nat.exists_eq_add_of_le (Nat.not_lt.1 hup)
    obtain ⟨fresh, _, h⟩ :=
      ticks_sym_after_turn (k := j) hm hidle hquiet (by omega) hcnt hdir (by omega)
    have hval := probeValue_falling
      (s := { s with cnt := s.top - j, dir := .down, fresh := fresh }) hm rfl (by simp only; omega)
      (by simp only; omega)
    have hfold : 2 * s.top - (s.top - j) = s.top + j := by omega
    rw [h]
    exact read_then_tick (s := { s with cnt := s.top - j, dir := .down, fresh := fresh }) hm hrun
      hclock (hval.trans hfold) hfits

/-! ### Readings of a CTC counter -/

/-- A READ after `k` ticks from 0, at most TOP, delivers the conversion of `k`. -/
theorem ctc_reading {s : State} {k : Nat} (hinv : Inv s) (hm : s.par.mode = .ctc)
    (hrun : s.tstate = .running) (hidle : s.busyOp = .none) (hcnt : s.cnt = 0) (hk : k ≤ s.top) :
    ∃ t, exec .read (ticks k s) = .next t ∧ t.data.toNat = toUs s.par k s.csSel := by
  have htop := hinv.top_le
  obtain ⟨fresh, h⟩ := ticks_ctc_rising (k := k) hm hidle (by omega) (by omega)
  rw [hcnt, Nat.zero_add] at h
  rw [h]
  exact ⟨_, exec_read_of_no_probe (s := { s with cnt := k, fresh := fresh }) (.inl hrun)
    (not_probeApplies (.inl hm)),
    toNat_reading hinv.params hinv.csSel_le (by omega : k ≤ 2 * maxTop s.par)⟩

/-- Settles O55: both readings are conversions, which rise with the count; in CTC the divisor D is
1. -/
theorem ctcReadStaysWithinPeriod : Obligations.CtcReadStaysWithinPeriod := by
  intro s period j k hinv hm hrun hidle hcnt hkhz hclock hrange htop hsel hjk hk
  obtain ⟨t, ht, hdata⟩ := ctc_reading hinv hm hrun hidle hcnt (hjk.trans hk)
  obtain ⟨u, hu, hdata'⟩ := ctc_reading hinv hm hrun hidle hcnt hk
  refine ⟨t, u, ht, hu, ?_, ?_⟩
  · rw [hdata, hdata']
    exact toUs_mono s.par s.csSel hjk
  · rw [hdata', hsel]
    exact toUs_le_period hinv.params hkhz (by simpa [hm, modeDivisor] using hclock) hrange
      (by simpa [hm, modeDivisor, ← htop] using hk)

end Sys2Proof.Proofs
end

section
/-! PROOFS. Waits and fairness (R90, R260, R262): a wait ends at the next tick, and under weak
fairness a step that stays enabled is taken. -/

namespace Sys2Proof.Proofs

open Sys2Proof Sys2Proof.Machine

/-! ### The end of a wait -/

/-- A tick that ends a wait leaves the timer Running with Ok (R130, R160, R214). -/
theorem tick_of_waiting {s : State} (hinv : Inv s) (hb : s.busyOp ≠ .none) :
    (tick s).busyOp = .none ∧ (tick s).tstate = .running ∧ (tick s).fail = false ∧
      (tick s).cause = .none ∧
      (s.busyOp = .startGuard → (tick s).ie = true ∧ (tick s).data = s.data) ∧
      (s.busyOp = .readProbe → (tick s).ie = s.ie) := by
  cases hwait : s.busyOp
  case none => exact absurd hwait hb
  case startGuard =>
    rw [tick_of_startGuard hwait]
    exact ⟨rfl, rfl, rfl, rfl, fun _ => ⟨rfl, rfl⟩, nofun⟩
  case readProbe =>
    rw [tick_of_readProbe hwait]
    exact ⟨rfl, hinv.probe_state hwait, rfl, rfl, nofun, fun _ => rfl⟩

theorem tickEnabled_of_waiting {s : State} (hinv : Inv s) (hb : s.busyOp ≠ .none) :
    tickEnabled s = true := by
  obtain ⟨hclock, hsel⟩ := hinv.wait_clock hb
  exact (tickEnabled_iff s).2 (hclock ▸ hsel)

/-- Settles O57: the clock runs in every wait, so the tick is enabled, and it ends the wait. -/
theorem waitEndsAtNextTick : Obligations.WaitEndsAtNextTick := by
  intro s ts hinv hb hs
  have hstep : step s = .next (tick { s with sched := ts }) :=
    (step_of_counter hinv.params hs).trans (if_pos (tickEnabled_of_waiting hinv hb))
  exact ⟨_, hstep, tick_of_waiting (inv_of_io hinv s.prog ts s.trace s.freeIdx) hb⟩

/-! ### Weak fairness -/

theorem inv_of_execution {σ : Nat → State} (hexec : Execution σ) (h0 : Inv (σ 0)) (k : Nat) :
    Inv (σ k) := by
  induction k with
  | zero => exact h0
  | succ k ih => exact inv_step ih (hexec k)

/-- The rule of weak fairness (R262): where `P` enables an agent's step, and every other step keeps
`P`, that step is taken at a point where `P` holds. -/
theorem exists_turn_of_weaklyFair {σ : Nat → State} {a : Turn} (hfair : WeaklyFair a σ) {k : Nat}
    (P : State → Prop) (hk : P (σ k)) (henabled : ∀ j, k ≤ j → P (σ j) → turnEnabled (σ j) a = true)
    (hkeep : ∀ j, k ≤ j → P (σ j) → nextTurn (σ j) ≠ some a → P (σ (j + 1))) :
    ∃ j, k ≤ j ∧ P (σ j) ∧ nextTurn (σ j) = some a := by
  by_contra hnever
  have hforever : ∀ j, k ≤ j → P (σ j) := by
    intro j hj
    induction j, hj using Nat.le_induction with
    | base => exact hk
    | succ j hj ih => exact hkeep j hj ih fun hturn => hnever ⟨j, hj, ih, hturn⟩
  obtain ⟨j, hj, hturn⟩ := hfair k fun j hj => henabled j hj (hforever j hj)
  exact hnever ⟨j, hj, hforever j hj, hturn⟩

/-- Settles O59: the tick is enabled as long as the command waits, no other step ends the wait, and
so the tick is taken and ends it. -/
theorem fairRunsCompleteWaits : Obligations.FairRunsCompleteWaits := by
  rintro σ ⟨hexec, htick, _⟩ h0 k hk
  have hinv := inv_of_execution hexec h0
  obtain ⟨j, hj, hb, hturn⟩ := exists_turn_of_weaklyFair htick (fun s => s.busyOp ≠ .none) hk
    (fun j _ hb => tickEnabled_of_waiting (hinv j) hb)
    (fun j _ hb hother => by
      obtain ⟨hkept, _⟩ := waitHeldBetweenTicks _ _ (hexec j) hb hother
      exact hkept ▸ hb)
  refine ⟨j + 1, by omega, ?_⟩
  cases stepCase_of_step (hexec j) with
  | ticks _ _ sched idx ht =>
    obtain ⟨hdone, _⟩ :=
      tick_of_waiting (inv_of_io (hinv j) (σ j).prog sched (σ j).trace idx) hb
    rw [ht]
    exact hdone
  | _ => simp_all

/-! ### The delivery of an event -/

/-- A pending event stays pending as long as no latch is taken (R40). -/
theorem pend_or_latched {σ : Nat → State} (hexec : Execution σ) {k m : Nat}
    (hpend : (σ k).pend = true) (hm : k ≤ m) :
    (σ m).pend = true ∨ ∃ j, k ≤ j ∧ nextTurn (σ j) = some .latch := by
  induction m, hm using Nat.le_induction with
  | base => exact .inl hpend
  | succ m hm ih =>
    refine ih.elim (fun hpend => ?_) .inr
    cases hnext : (σ (m + 1)).pend
    case true => exact .inl rfl
    case false =>
      obtain ⟨hturn, _⟩ := pendingClearedByLatchOnly _ _ (hexec m) hpend hnext
      exact .inr ⟨m, hm, hturn⟩

section
variable {σ : Nat → State} {k : Nat} (hfair : FairExecution σ)
  (hidle : ∀ j, k ≤ j → (σ j).busyOp = .none)
include hfair hidle

/-- With an event in flight an active callback returns, and meanwhile the event stays in flight. -/
theorem exists_not_active {h : Word} (hk : (σ k).inflight = h) (hne : h ≠ 0) :
    ∃ j, k ≤ j ∧ (σ j).inflight = h ∧ (σ j).active = false := by
  obtain ⟨hexec, _, _, _, hreturn⟩ := hfair
  cases hactive : (σ k).active
  case false => exact ⟨k, le_rfl, hk, hactive⟩
  case true =>
    obtain ⟨j, hj, ⟨hh, ha⟩, hturn⟩ := exists_turn_of_weaklyFair hreturn
      (fun s => s.inflight = h ∧ s.active = true) ⟨hk, hactive⟩
      (fun j hj ⟨_, ha⟩ => (returnEnabled_iff _).2 ⟨ha, hidle j hj⟩)
      (fun j _ ⟨hh, ha⟩ hother => by
        obtain ⟨hkept, hact⟩ := inflight_kept (hexec j) (hh.symm ▸ hne) fun _ => ha
        rw [if_neg hother] at hact
        exact ⟨hkept.trans hh, hact.trans ha⟩)
    obtain ⟨hkept, hact⟩ := inflight_kept (hexec j) (hh.symm ▸ hne) fun _ => ha
    rw [if_pos hturn] at hact
    exact ⟨j + 1, by omega, hkept.trans hh, hact⟩

/-- An event in flight is delivered: the bridge invokes the callback, and INFLIGHT is free again. -/
theorem exists_delivery {h : Word} (hk : (σ k).inflight = h) (hne : h ≠ 0) :
    ∃ l, k ≤ l ∧ (σ (l + 1)).trace = (σ l).trace ++ [.callback h] ∧ (σ (l + 1)).inflight = 0 := by
  obtain ⟨m, hm, hflight, hactive⟩ := exists_not_active hfair hidle hk hne
  obtain ⟨hexec, _, _, hinvoke, _⟩ := hfair
  obtain ⟨l, hl, ⟨hh, _⟩, hturn⟩ := exists_turn_of_weaklyFair hinvoke
    (fun s => s.inflight = h ∧ s.active = false) ⟨hflight, hactive⟩
    (fun j hj ⟨hh, ha⟩ => (invokeEnabled_iff _).2 ⟨hh.symm ▸ hne, ha, hidle j (hm.trans hj)⟩)
    (fun j _ ⟨hh, ha⟩ hother => by
      obtain ⟨hkept, hact⟩ :=
        inflight_kept (hexec j) (hh.symm ▸ hne) fun hturn => absurd hturn hother
      rw [ha, ite_self] at hact
      exact ⟨hkept.trans hh, hact⟩)
  refine ⟨l, hm.trans hl, ?_⟩
  cases bridgeCase_of_step (hexec l) with
  | latches hlatch => cases hlatch.symm.trans hturn
  | invokes _ _ hfree _ _ htrace => exact ⟨hh ▸ htrace, hfree⟩
  | keeps _ hnot => exact absurd hturn hnot

/-- With INFLIGHT free a pending event is latched. -/
theorem exists_latch_of_free (hie : ∀ j, k ≤ j → (σ j).ie = true) (hpend : (σ k).pend = true)
    (hfree : (σ k).inflight = 0) : ∃ j, k ≤ j ∧ nextTurn (σ j) = some .latch := by
  obtain ⟨hexec, _, hlatch, _⟩ := hfair
  obtain ⟨j, hj, _, hturn⟩ := exists_turn_of_weaklyFair hlatch
    (fun s => s.pend = true ∧ s.inflight = 0) ⟨hpend, hfree⟩
    (fun j hj ⟨hp, hf⟩ => (latchEnabled_iff _).2 ⟨hp, hie j hj, hidle j hj, hf⟩)
    (fun j _ ⟨hp, hf⟩ hother => by
      cases bridgeCase_of_step (hexec j) with
      | latches hturn => exact absurd hturn hother
      | invokes _ _ hfree' _ hkept => exact ⟨hkept.trans hp, hfree'⟩
      | keeps _ _ hinflight _ hkept => exact ⟨hkept hp, hinflight.trans hf⟩)
  exact ⟨j, hj, hturn⟩

/-- A pending event is latched, after the delivery of the event in flight, if there is one. -/
theorem exists_latch (hie : ∀ j, k ≤ j → (σ j).ie = true) (hpend : (σ k).pend = true) :
    ∃ j, k ≤ j ∧ nextTurn (σ j) = some .latch := by
  by_cases hfree : (σ k).inflight = 0
  case pos => exact exists_latch_of_free hfair hidle hie hpend hfree
  case neg =>
    obtain ⟨l, hl, _, hfree'⟩ := exists_delivery hfair hidle rfl hfree
    have hkl : k ≤ l + 1 := by omega
    rcases pend_or_latched hfair.1 hpend hkl with hpend' | hlatched
    · obtain ⟨j, hj, hturn⟩ := exists_latch_of_free hfair (fun j hj => hidle j (hkl.trans hj))
        (fun j hj => hie j (hkl.trans hj)) hpend' hfree'
      exact ⟨j, hkl.trans hj, hturn⟩
    · exact hlatched

end

/-- A latch step with a callback attached puts its handle in flight. -/
theorem inflight_of_latch {s t : State} (hstep : step s = .next t)
    (hturn : nextTurn s = some .latch) : t.inflight = s.cb := by
  cases bridgeCase_of_step hstep with
  | latches _ _ _ hcaptured => exact hcaptured
  | invokes hinvoke => cases hinvoke.symm.trans hturn
  | keeps hnot => exact absurd hturn hnot

/-- Settles O60: the pending event is latched at some `j`, and from `j + 1` on the handle that was
attached at `j` is in flight until its delivery. -/
theorem fairRunsDeliverPendingEvents : Obligations.FairRunsDeliverPendingEvents := by
  intro σ k hfair hquiet hpend
  have hexec := hfair.1
  have hidle (j : Nat) (hj : k ≤ j) : (σ j).busyOp = .none := (hquiet j hj).1
  have hie (j : Nat) (hj : k ≤ j) : (σ j).ie = true := (hquiet j hj).2.1
  obtain ⟨j, hj, hturn⟩ := exists_latch hfair hidle hie hpend
  obtain ⟨_, _, hcb⟩ := hquiet j hj
  obtain ⟨l, hl, htrace, _⟩ := exists_delivery (k := j + 1) hfair
    (fun i hi => hidle i (by omega)) (inflight_of_latch (hexec j) hturn) hcb
  exact ⟨j, l, hj, hl, hturn, htrace⟩

end Sys2Proof.Proofs
end
